-- ==== Sys2Proof/Word.lean ====
section
/-! DEFINITION. The word types of the PF6220: a byte and a 24-bit flash address (00_scope.md 4; R1). -/

namespace Sys2Proof

/-- One byte, as it stands in the flash, on the lanes and in records and pages. -/
abbrev Byte := BitVec 8

/-- A 24-bit flash address as a command carries it (R1). -/
abbrev Address := BitVec 24

end Sys2Proof
end

