-- ==== Sys2Proof/Syntax.lean ====
section
/-! DEFINITION. The commands the PF6220 takes: one constructor of `Instr` for each row of spec/opcode_table.json.
A command is one indivisible step (95_what_each_step_holds.md). Its operands are what the outside world puts on the
part's lines, and, for the flash on the downstream lane, what R3 leaves to the flash (log 1, 6, 7, 8). -/

namespace Sys2Proof

/-- Which part of an upstream transaction a lane command stands for (R1). The spec lets other events fall inside a
transaction (R10, R14, R45, R78), so a transaction may be given whole or in parts. (Log 1.) -/
inductive Span where
  /-- U_CS asserts, the command and its bytes pass, U_CS deasserts. -/
  | whole
  /-- U_CS asserts, the command and its bytes pass, and U_CS stays asserted. -/
  | opens
  /-- Further bytes of the transaction in progress pass. -/
  | more
  /-- Further bytes of the transaction in progress pass, then U_CS deasserts. -/
  | closes
deriving DecidableEq, Repr

/-- What the outside world does during POWER_ON's start-up load (R17). -/
structure PowerOnInput where
  /-- LINE_MODE asserted when it is sampled (R15). -/
  lineMode : Bool
  /-- The step of R17, 1 to 9, during which PFW asserts, if it does. -/
  pfwStep : Option Nat
  /-- The system controller holds U_CS asserted across the release of SYS_HOLD (R1). -/
  selectHeld : Bool
  /-- Bytes the flash answers otherwise than State holds them, address and byte (log 6). -/
  misread : List Host.Cell
deriving DecidableEq, Repr

/-- The commands. Record rows carry the record's tag and body as the Intake has collected them (R30). -/
inductive Instr where
  /-- POWER_ON (R17). -/
  | powerOn (input : PowerOnInput)
  /-- POWER_LOSS (R133). `reached`: the bytes a flash operation cut by the loss had reached, as it leaves them (R3). -/
  | powerLoss (reached : List Host.Cell)
  /-- LANE_RESET (R14). `taken`: the flash takes a forwarded program or erase that the reset drops (R170: it may). -/
  | laneReset (taken : Bool)
  /-- PFW_ASSERT (R128, R181). -/
  | pfwAssert
  /-- PFW_DEASSERT (R181). -/
  | pfwDeassert
  /-- LINE_CLOCK_TICK (R24). -/
  | lineClockTick
  /-- IDLE_TIMER_EXPIRY (R22). -/
  | idleTimerExpiry
  /-- TRANSACTION_DROPPED (R1). -/
  | transactionDropped (span : Span)
  /-- READ (R6): `count` bytes clocked in this part of the transaction. -/
  | read (span : Span) (addr : Address) (count : Nat)
  /-- FAST_READ (R2): the dummy byte is not counted. -/
  | fastRead (span : Span) (addr : Address) (count : Nat)
  /-- PAGE_PROGRAM (R7). -/
  | pageProgram (span : Span) (addr : Address) (data : List Byte)
  /-- SECTOR_ERASE (R7). -/
  | sectorErase (span : Span) (addr : Address)
  /-- BLOCK_ERASE (R7). -/
  | blockErase (span : Span) (addr : Address)
  /-- CHIP_ERASE (R7). -/
  | chipErase (span : Span)
  /-- WRITE_ENABLE (R9). -/
  | writeEnable (span : Span)
  /-- WRITE_DISABLE (R9). -/
  | writeDisable (span : Span)
  /-- READ_STATUS (R11). `busyFor`: how many of the bytes the flash answers while its own operation still runs. -/
  | readStatus (span : Span) (count : Nat) (busyFor : Nat)
  /-- READ_ID (R2, R11). -/
  | readId (span : Span) (count : Nat)
  /-- UNRECOGNISED_COMMAND (R4): the command byte and the bytes that follow it. -/
  | unrecognisedCommand (span : Span) (command : Byte) (data : List Byte)
  /-- RECORD_FRAMING (R30): the offset the program started at and the bytes it carried. -/
  | recordFraming (offset : Byte) (data : List Byte)
  /-- RECORD_UNKNOWN_KIND (R31). -/
  | recordUnknownKind (kind : Byte) (tag : Byte) (body : List Byte)
  /-- SESSION_OPEN (R20). -/
  | sessionOpen (tag : Byte) (body : List Byte)
  /-- RESET_SESSION (R27). -/
  | resetSession (tag : Byte) (body : List Byte)
  /-- MASK (R182). -/
  | mask (tag : Byte) (body : List Byte)
  /-- RETIRE (R180). -/
  | retire (tag : Byte) (body : List Byte)
  /-- GEOMETRY (R40). -/
  | geometry (tag : Byte) (body : List Byte)
  /-- FORMAT (R50). -/
  | format (tag : Byte) (body : List Byte)
  /-- PLANE (R48). -/
  | plane (tag : Byte) (body : List Byte)
  /-- FRAME_OPEN (R55). -/
  | frameOpen (tag : Byte) (body : List Byte)
  /-- ZONES (R57). -/
  | zones (tag : Byte) (body : List Byte)
  /-- FRAME_CLOSE (R60). -/
  | frameClose (tag : Byte) (body : List Byte)
  /-- FRAME_ABANDON (R62). -/
  | frameAbandon (tag : Byte) (body : List Byte)
  /-- ROLLBACK (R92). -/
  | rollback (tag : Byte) (body : List Byte)
  /-- WATCH (R112). -/
  | watch (tag : Byte) (body : List Byte)
  /-- COMMIT (R51). -/
  | commit (tag : Byte) (body : List Byte)
  /-- PARK (R51). -/
  | park (tag : Byte) (body : List Byte)
  /-- SCAN (R123). -/
  | scan (tag : Byte) (body : List Byte)
  /-- KEY_STAGE (R158). -/
  | keyStage (tag : Byte) (body : List Byte)
  /-- KEY_MORE (R159). -/
  | keyMore (tag : Byte) (body : List Byte)
  /-- KEY_STORE (R161). -/
  | keyStore (tag : Byte) (body : List Byte)
  /-- KEY_ERASE (R164). -/
  | keyErase (tag : Byte) (body : List Byte)
  /-- KEY_UNSTAGE (R160). -/
  | keyUnstage (tag : Byte) (body : List Byte)
  /-- REGION (R171). -/
  | region (tag : Byte) (body : List Byte)
  /-- CLOSE_OUT (R174). -/
  | closeOut (tag : Byte) (body : List Byte)
  /-- SOLVE_TAKE_FRAME (R63). -/
  | solveTakeFrame
  /-- COMPUTING_END (R77). -/
  | computingEnd
  /-- PUBLISH (R79). -/
  | publish
  /-- JOB_START (R122). -/
  | jobStart
  /-- SEQUENCER_STEP_BEGIN (R124). -/
  | sequencerStepBegin
  /-- READ_STEP_COMPLETE (R125). `busy`: a status read finds the flash still at an operation. `misread`: bytes the
  flash answers otherwise than State holds them (log 6). -/
  | readStepComplete (busy : Bool) (misread : List Host.Cell)
  /-- OCCUPIED_PERIOD_END (R10). -/
  | occupiedPeriodEnd
  /-- SYS_RST_RELEASE (R1). -/
  | sysRstRelease
  /-- LAMP_FLASH_TIMER (R26). -/
  | lampFlashTimer
deriving DecidableEq, Repr

end Sys2Proof
end

