-- ==== Sys2Proof/Decode.lean ====
section
/-! DEFINITION. The decoder the host asks for. No row of spec/opcode_table.json gives bits to a command (the commands
are bus transactions, records and events, not words), so no word spells one. -/

namespace Sys2Proof

/-- The command that a word spells by the table's bits: none, for every word, since no row of the table gives bits. -/
def decodeTableWord (_nbits _w : Nat) : Option Instr := none

end Sys2Proof
end

