-- ==== Sys2Proof/Config.lean ====
section
/-! DEFINITION. What the manual leaves to the flash on the downstream lane and never fixes: free values.
None of these constants has a body, so no statement can rest on a value of one. -/

namespace Sys2Proof.Config

/-- Bits 2 to 7 of the flash's own READ STATUS answer. R3 gives bits 0 and 1 alone. The argument is the number of
free values drawn before this one. (Log 9.) -/
opaque statusHighBits : Nat → BitVec 6

/-- Byte i of the flash's answer to a forwarded READ ID (R2 says only that the flash answers). (Log 9.) -/
opaque identificationByte : Nat → Byte

/-- Byte i of the flash's answer to an unrecognised command byte forwarded in BYPASS mode (R4), for the draw
number given. (Log 10.) -/
opaque unrecognisedAnswer : Nat → Byte → Nat → Byte

/-- The cells an unrecognised command forwarded in BYPASS mode changes in the flash, with their new bytes, for the
draw number, the command byte and the bytes sent after it. (Log 10.) -/
opaque unrecognisedCells : Nat → Byte → List Byte → List (Nat × Byte)

/-- The flash's write-enable latch after an unrecognised command forwarded in BYPASS mode. (Log 10.) -/
opaque unrecognisedLatch : Nat → Byte → List Byte → Bool

/-- Byte 1 of a page the Intake has collected, where a program of two bytes or more that did not start at offset 0 never
addressed it (R28, R30 leave it open). The argument is the draw number. (Log 23.) -/
opaque collectedByte : Nat → Byte

end Sys2Proof.Config
end

