-- ==== Sys2Proof/Machine/State.lean ====
section
/-! DEFINITION. The state of the PF6220: every piece of state its chapters give it, as plain data, and the state at
power-on before the start-up load has run (`State.reset`, log 3). INVENTORY.md names the rule of each field. -/

namespace Sys2Proof.Machine

/-! ## Names of the manual (03 §3.6) -/

/-- The mode decided at each power-on (R18). -/
inductive Mode where
  | bypass | normal | commissioning
deriving DecidableEq, Repr

/-- The session states (R19); `opened` is the manual's OPEN. -/
inductive SessionState where
  | dormant | opened | lapsed | closed
deriving DecidableEq, Repr

/-- The window kinds (R5, R13): PASS and the nine windows. -/
inductive Window where
  | pass | descriptor | panel | panelCheck | aperture | keys | park | ring | profiles | remap
deriving DecidableEq, Repr

/-- The result codes of a record (03 §3.6). -/
inductive Result where
  | accepted | queued | truncated | framing | unknownKind | noSession | lapsed | closed | busy | queueFull | range
  | notReady | noFrame | frameHeld | historyEmpty | classTaken | slotLocked | stageState | precondition | gridStarted
  | queueEmpty
deriving DecidableEq, Repr

/-- The eight job kinds (R34, §9.4). -/
inductive JobKind where
  | commitGrid | park | keyStore | keyErase | regionSelect | closeOut | scan | scrub
deriving DecidableEq, Repr

/-- The outcomes of the operation outcome table (R34). -/
inductive JobOutcome where
  | none | done | donePoisoned | verifyFailed | profileInvalid | discarded
deriving DecidableEq, Repr

/-- The frame buffer states (R54). -/
inductive FrameState where
  | free | filling | queued | solving
deriving DecidableEq, Repr

/-- The Solve Engine states (R68). -/
inductive EngineState where
  | idle | computing | publishWait
deriving DecidableEq, Repr

/-- The key slot states (R154). -/
inductive KeyState where
  | empty | pending | present | damaged
deriving DecidableEq, Repr

/-- The staging buffer states (R157). -/
inductive StageState where
  | idle | filling | complete | held
deriving DecidableEq, Repr

/-- The three gray planes (R39). -/
inductive Plane where
  | low | mid | high
deriving DecidableEq, Repr

/-- The rounding of a plane record (R48). -/
inductive Rounding where
  | nearest | towardZero
deriving DecidableEq, Repr

/-- The class of a zone in a solve (R71 to R80); `partialMove` is the manual's PARTIAL. -/
inductive ZoneClass where
  | unmeasured | inBand | adjusted | partialMove | saturated
deriving DecidableEq, Repr

/-- The kinds of a watch monitor (R112). -/
inductive WatchKind where
  | off | read | write | both
deriving DecidableEq, Repr

/-- The condition classes (13 §13.1). -/
inductive CondClass where
  | descriptor | storeUncorrected | storeCorrected | degraded | keyDamage | collision | laneRefused | warning
  | sessionLapse | jobFailed
deriving DecidableEq, Repr

/-- The decode of a check block (R117, R118). `checkOnly` and `repaired` are the manual's CORRECTED: in the check field
alone, and with the data byte at an index replaced. -/
inductive Decode where
  | blank | good | poisoned | checkOnly | repaired (index : Nat) (byte : Byte) | uncorrectable
deriving DecidableEq, Repr

/-- The kinds of a commit record (03 §3.6). -/
inductive RecordKind where
  | uniformity | park | keys | region | closeOut
deriving DecidableEq, Repr

/-! ## The downstream flash -/

/-- An erase or program the flash is carrying out (R3): its range, and the cells that stood there when it began, kept
for a power loss that cuts it. -/
structure FlashOp where
  base : Nat
  len : Nat
  before : List Host.Cell
deriving DecidableEq, Repr

/-- The serial flash on the downstream lane, as R3 describes it. -/
structure Flash where
  /-- The bytes that are not 0xFF, in canonical form (`Memory.wf`). -/
  cells : List Host.Cell
  /-- The write-enable latch. -/
  latch : Bool
  /-- The erase or program in progress. -/
  op : Option FlashOp
deriving DecidableEq, Repr

/-! ## Lane Front End -/

/-- The window bases the Layout Descriptor gives (R16). -/
structure Layout where
  panel : Nat
  panelCheck : Nat
  aperture : Nat
  keys : Nat
  park : Nat
  ring : Nat
  profiles : Nat
  remap : Nat
deriving DecidableEq, Repr

/-- The command of an upstream transaction (R2); `incomplete` until the command and address are complete (R1). -/
inductive LaneCommand where
  | incomplete | read | fastRead | pageProgram | sectorErase | blockErase | chipErase | writeEnable | writeDisable
  | readStatus | readId | unrecognised (byte : Byte)
deriving DecidableEq, Repr

/-- The treatment decided for a transaction, held to its end (R1). -/
inductive Treatment where
  /-- A read: each byte from its own source (R6). -/
  | served
  /-- Passed to the flash. -/
  | forwarded
  /-- Withheld, judged against a window and, but for CHIP ERASE, a sector (R7, R8). -/
  | withheld (window : Window) (sector : Option Nat)
  /-- An aperture program, taken as a record at its end (R28). -/
  | record
  /-- Answered or absorbed by the part without the flash (R4, R11). -/
  | answered
deriving DecidableEq, Repr

/-- The upstream transaction in progress (R1). -/
structure Txn where
  /-- It began under SYS_HOLD or SYS_RST and is ignored to its end (R1). -/
  ignored : Bool
  command : LaneCommand
  /-- The start address sent with the command. -/
  addr : Nat
  /-- It began inside an occupied period (R10). -/
  occupied : Bool
  treatment : Treatment
  /-- The profile slot the remap pointed at when it began (R6). -/
  remapSlot : Option Nat
  /-- Bytes served so far. -/
  served : Nat
  /-- Data bytes taken so far. -/
  data : List Byte
  /-- The address of the first byte served as fill (R11). -/
  firstFilled : Option Nat
  /-- The grid generation its overlay bytes came from, once one was served (R114). -/
  overlayGen : Option Nat
  /-- The response pages snapped so far, page number and bytes (R35). -/
  pages : List (Nat × List Byte)
deriving DecidableEq, Repr

/-- One set of window counters (R13), each 0..65535. -/
structure CounterSet where
  reads : Nat
  writes : Nat
  withheld : Nat
deriving DecidableEq, Repr

/-! ## Aperture Intake -/

/-- One entry of the operation outcome table (R34). -/
structure OutcomeEntry where
  tag : Byte
  outcome : JobOutcome
  count : Nat
  ringGen : Nat
deriving DecidableEq, Repr

/-- What the Aperture Intake keeps (R33, R34). -/
structure Intake where
  lastTag : Byte
  lastResult : Result
  recordCount : Nat
  closeOutIndex : Nat
  /-- Entries 0..7 by job kind and 8 for the solve. -/
  outcomes : List OutcomeEntry
deriving DecidableEq, Repr

/-! ## Session Controller -/

/-- The idle timer (R21): stopped, held while the part is not idle, or counting its full timeout in seconds. -/
inductive IdleTimer where
  | stopped | held | running (seconds : Nat)
deriving DecidableEq, Repr

/-- A lamp pattern (R26); rate and duration as the codes of R20. -/
inductive LampPattern where
  | released | off | steady | flash (rate : Nat) (duration : Nat)
deriving DecidableEq, Repr

/-- The LAMP line: its pattern, and whether the lamp is lit now. -/
structure Lamp where
  pattern : LampPattern
  lit : Bool
deriving DecidableEq, Repr

/-- What the Session Controller keeps (R19 to R24). -/
structure Session where
  state : SessionState
  station : Nat
  timeoutTens : Nat
  timeoutOnes : Nat
  /-- 0 is 1 s and 1 is 10 s (R20). -/
  prescale : Nat
  timer : IdleTimer
  lampRate : Nat
  lampDuration : Nat
  day : Nat
  seconds : Nat
  timeValid : Bool
  openDay : Nat
  openSeconds : Nat
  publishSeen : Bool
deriving DecidableEq, Repr

/-! ## Zone Grid -/

/-- The columns and rows of the grid (R40). -/
structure Geometry where
  cols : Nat
  rows : Nat
deriving DecidableEq, Repr

/-- A plane record that is set (R48). -/
structure PlaneRecord where
  gray : Nat
  target : Nat
  slope : Nat
  tolLo : Nat
  tolHi : Nat
  limit : Nat
  rounding : Rounding
deriving DecidableEq, Repr

/-- The Zone Grid (04 §4.1). Codes and marks stand in grid order: plane, row, column (R39). -/
structure Grid where
  geometry : Option Geometry
  codes : List Int
  marks : List Bool
  low : Option PlaneRecord
  mid : Option PlaneRecord
  high : Option PlaneRecord
  width : Nat
  shift : Nat
  generation : Nat
  genMark : Nat
  /-- The job kind that holds the grid lock (R46). -/
  lock : Option JobKind
  /-- The panel read hold (R45). -/
  hold : Bool
deriving DecidableEq, Repr

/-! ## Frame Buffers and Solve Engine -/

/-- A rectangle of zones. -/
structure Rect where
  x0 : Nat
  y0 : Nat
  w : Nat
  h : Nat
deriving DecidableEq, Repr

/-- A frame's snapshot of its plane's solve parameters, with the effective target (R60). -/
structure Snapshot where
  tEff : Nat
  slope : Nat
  tolLo : Nat
  tolHi : Nat
  limit : Nat
  rounding : Rounding
deriving DecidableEq, Repr

/-- A frame buffer (05 §5.1). A slot without its present mark is `none`. -/
structure Frame where
  state : FrameState
  tag : Byte
  plane : Plane
  rect : Rect
  slots : List (Option Nat)
  snapshot : Option Snapshot
  discard : Bool
deriving DecidableEq, Repr

/-- The working result of one zone (R69): its preliminary class and limited adjustment, 0 where it has none. -/
structure ZoneResult where
  cls : ZoneClass
  adjust : Int
deriving DecidableEq, Repr

/-- The Solve Engine (R68, R69). The frame it holds is the SOLVING buffer. -/
structure Engine where
  state : EngineState
  results : List ZoneResult
  largest : Nat
deriving DecidableEq, Repr

/-- A solve report (R83). -/
structure SolveReport where
  tag : Byte
  plane : Plane
  rect : Rect
  unmeasured : Nat
  inBand : Nat
  adjusted : Nat
  partialMoves : Nat
  saturated : Nat
  largest : Nat
  minCode : Int
  maxCode : Int
  generation : Nat
deriving DecidableEq, Repr

/-! ## Correction History and Presentation Unit -/

/-- An entry of the Correction History (R89). -/
structure HistoryEntry where
  plane : Plane
  rect : Rect
  tag : Byte
  codes : List Int
  marks : List Bool
deriving DecidableEq, Repr

/-- The Correction History, top entry first (R89, R91). -/
structure History where
  stack : List HistoryEntry
  truncated : Nat
deriving DecidableEq, Repr

/-- A watch monitor (R112 to R114). -/
structure Watch where
  kind : WatchKind
  base : Address
  mask : Address
  count : Nat
  lastGen : Nat
deriving DecidableEq, Repr

/-! ## Commit Ring, Key Slots and Region Selector -/

/-- Every field of a commit record (03 §3.6, R136). -/
structure CommitRecord where
  kind : Nat
  closed : Bool
  regionValid : Bool
  timeValid : Bool
  uniformityValid : Bool
  parkValid : Bool
  station : Nat
  ringGen : Nat
  uniGen : Nat
  uniLength : Nat
  width : Nat
  shift : Nat
  cols : Nat
  rows : Nat
  poisoned : Nat
  parkGen : Nat
  parkImage : Nat
  regionSlot : Nat
  profileId : Nat
  regionScale : Nat
  keySet : Nat
  day : Nat
  seconds : Nat
  unknown : Nat
deriving DecidableEq, Repr

/-- The latest-record state when it is not empty (R135). -/
structure Latest where
  slot : Nat
  record : CommitRecord
deriving DecidableEq, Repr

/-- An entry of the Key Slot Table (11 §11.2). -/
structure KeyEntry where
  state : KeyState
  cls : Nat
  length : Nat
  station : Nat
  day : Nat
  seconds : Nat
  /-- For a PENDING slot: the state it held when its job was queued. -/
  prior : KeyState
  /-- For a PENDING slot: its job is an erase. -/
  erasing : Bool
deriving DecidableEq, Repr

/-- The staging buffer (R157). -/
structure Staging where
  state : StageState
  slot : Nat
  cls : Nat
  total : Nat
  filled : Nat
  /-- 448 bytes. -/
  payload : List Byte
deriving DecidableEq, Repr

/-- A valid profile header (R168). -/
structure ProfileHeader where
  id : Nat
  scale : Nat
  classes : List Nat
deriving DecidableEq, Repr

/-- A selected region (R169). -/
structure Selection where
  slot : Nat
  id : Nat
  scale : Nat
deriving DecidableEq, Repr

/-- The Region Selector (12 §12.2). -/
structure Region where
  selected : Option Selection
  /-- The required classes; `none` when not known. -/
  classes : Option (List Nat)
  /-- Eight entries; `none` is unknown (R170). -/
  directory : List (Option ProfileHeader)
  /-- The reason of the last PROFILE_INVALID ending (R172). -/
  reason : Nat
deriving DecidableEq, Repr

/-! ## Condition Queue -/

/-- A condition record (R178). -/
structure CondRecord where
  seq : Nat
  cls : CondClass
  indirect : Bool
  ancillary : Bool
  overflow : Bool
  parkNotQueued : Bool
  /-- The failing address, when ADDRESS is valid. -/
  address : Option Nat
  /-- The slot, when SLOT is valid. -/
  slot : Option Nat
  /-- The command byte, when COMMAND is valid. -/
  command : Option Byte
  repeats : Nat
  timeValid : Bool
  day : Nat
  seconds : Nat
  mode : Mode
deriving DecidableEq, Repr

/-- The Condition Queue, oldest record first (13). -/
structure Conditions where
  records : List CondRecord
  counter : Nat
  /-- The known-fault list: sector addresses, oldest first. -/
  known : List Nat
  /-- Bit c masks class c. -/
  mask : BitVec 16
deriving DecidableEq, Repr

/-! ## Flash Sequencer -/

/-- A job (§9.4): its kind, its tag, and what its owner gave it: a key or profile slot, or a SCRUB's sector. -/
structure Job where
  kind : JobKind
  tag : Byte
  slot : Nat
  sector : Nat
deriving DecidableEq, Repr

/-- How the bytes of a written sector form check blocks (R116, R129, R140). -/
inductive BlockForm where
  /-- Embedded blocks: 60 data bytes and their check. -/
  | embedded
  /-- PANEL blocks, decoded against the check table. -/
  | panel
  /-- The check table, whose entries have no check of their own (R140). -/
  | checkTable
deriving DecidableEq, Repr

/-- What a job wrote into one sector, for its verify and its one repeat (R126). -/
structure SectorWrite where
  sector : Nat
  /-- The job erased the sector. -/
  erased : Bool
  /-- Where the programmed bytes begin. -/
  addr : Nat
  bytes : List Byte
  form : BlockForm
  /-- The decode each block must give. -/
  expects : List Decode
  /-- This is the verify after the repeat. -/
  second : Bool
deriving DecidableEq, Repr

/-- A sector-buffer rewrite (R129). -/
structure Rewrite where
  sector : Nat
  /-- The owner's new content, if any: where it begins and its bytes. -/
  splice : Option (Nat × List Byte)
  /-- A SCRUB: it ends early when nothing decodes CORRECTED (R132). -/
  scrub : Bool
  /-- It is the repeat of a write that failed its verify. -/
  second : Bool
deriving DecidableEq, Repr

/-- What the bytes of a read step are for. -/
inductive Use where
  /-- One page into the sector buffer (R129 step 1). -/
  | loadPage
  /-- The check table, or more PANEL data behind what was read (R129 step 2). -/
  | aside (append : Bool)
  /-- The last read before a sector-buffer rewrite is planned, into the buffer or aside (R129 steps 2 to 4). -/
  | plan (toBuffer : Bool) (rewrite : Rewrite)
  /-- A verify (R126). -/
  | verify (write : SectorWrite)
  /-- The target slot of an append (R138 step 3). -/
  | probeTarget
  /-- A key slot expected to be blank (R162). -/
  | probeSlot
  /-- A profile header (R172). -/
  | header
  /-- SCAN: a key slot, a ring sector, a PANEL sector (R130). -/
  | scanSlot (slot : Nat)
  | scanRing (index : Nat)
  | scanPanel (index : Nat)
deriving DecidableEq, Repr

/-- A step of a job on the downstream lane (§9.5). -/
inductive Step where
  | read (addr : Nat) (len : Nat) (use : Use)
  | erase (sector : Nat)
  | program (addr : Nat) (bytes : List Byte)
deriving DecidableEq, Repr

/-- How far the job's next step has come (R124, R125). -/
inductive Phase where
  /-- Its status read has not begun, or found the flash busy, or was cut, or its answer has grown stale. -/
  | waiting
  /-- Its status read is in progress. -/
  | polling
  /-- The flash has reported itself not busy; the step has not begun. -/
  | ready
  /-- Its read is in progress. -/
  | reading
  /-- Its erase or program is in progress: an occupied period (R10). -/
  | occupied
deriving DecidableEq, Repr

/-- Whether a job is at its own steps or at its append (R137). -/
inductive Stage where
  | work | append
deriving DecidableEq, Repr

/-- SCAN's findings in the sector it is reading (R131). -/
structure Findings where
  corrected : Bool
  uncorrectable : Bool
  poisoned : Bool
  blank : Bool
deriving DecidableEq, Repr

/-- What a job holds from its start or gathers on its way. -/
structure JobData where
  /-- The grid state taken at the start (R46). -/
  grid : Option Grid
  /-- COMMIT_GRID's poisoned block count (R141). -/
  poisoned : Nat
  /-- PARK's planned image generation (R144). -/
  imageGen : Nat
  /-- KEY_STORE's table entry and slot bytes, built at the start (R162). -/
  key : Option (KeyEntry × List Byte)
  /-- REGION_SELECT's header (R172). -/
  header : Option ProfileHeader
  /-- The commit record, built when the append step begins (R137). -/
  record : Option CommitRecord
  /-- The append's target slot (R138). -/
  target : Nat
  /-- The append erased the target's sector (R139). -/
  ringErased : Bool
  /-- Bytes read aside of the sector buffer. -/
  aside : List Byte
  /-- SCAN's findings in the sector at hand, and a correction charged to PANEL_CHECK (R120, R131). -/
  found : Findings
  checkFound : Bool
deriving DecidableEq, Repr

/-- The job in progress (R122). -/
structure Active where
  job : Job
  stage : Stage
  /-- The steps not yet completed; the head is the next or current one. -/
  todo : List Step
  phase : Phase
  data : JobData
deriving DecidableEq, Repr

/-- An entry of the sector tally (R121). -/
structure TallyEntry where
  sector : Nat
  count : Nat
  reported : Bool
deriving DecidableEq, Repr

/-- The Flash Sequencer and the Block Check Unit's tally (09). -/
structure Sequencer where
  active : Option Active
  waiting : List Job
  buffer : List Byte
  /-- Oldest entry first. -/
  tally : List TallyEntry
deriving DecidableEq, Repr

/-! ## The whole state -/

/-- The state of the part, of the flash it drives, and of the queue of commands that wait. -/
structure State where
  sysHold : Bool
  sysRst : Bool
  pfw : Bool
  lineMode : Bool
  attn : Bool
  lamp : Lamp
  mode : Mode
  layout : Option Layout
  upstream : Option Txn
  served : List Byte
  shadow : Bool
  counters : List CounterSet
  intake : Intake
  session : Session
  grid : Grid
  frame0 : Frame
  frame1 : Frame
  engine : Engine
  report : Option SolveReport
  classMap : List (Option ZoneClass)
  history : History
  watches : List Watch
  seq : Sequencer
  latest : Option Latest
  keys : List KeyEntry
  staging : Staging
  region : Region
  conds : Conditions
  flash : Flash
  draws : Nat
  pending : List Instr
deriving DecidableEq, Repr

/-! ## Values at power-on -/

/-- A FREE buffer (R67). What a FREE buffer held has no meaning (R54). -/
def Frame.empty : Frame :=
  { state := .free, tag := 0, plane := .low, rect := { x0 := 0, y0 := 0, w := 0, h := 0 }, slots := [],
    snapshot := none, discard := false }

/-- The grid at power-on (04 §4.1). -/
def Grid.empty : Grid :=
  { geometry := none, codes := [], marks := [], low := none, mid := none, high := none, width := 8, shift := 0,
    generation := 0, genMark := 0, lock := none, hold := false }

/-- An EMPTY key slot entry (R155). -/
def KeyEntry.empty : KeyEntry :=
  { state := .empty, cls := 0, length := 0, station := 0, day := 0, seconds := 0, prior := .empty, erasing := false }

/-- The IDLE staging buffer (R157). -/
def Staging.idle : Staging :=
  { state := .idle, slot := 0, cls := 0, total := 0, filled := 0, payload := List.replicate 448 0 }

/-- An outcome entry before the first ending of its kind (R34). -/
def OutcomeEntry.unused : OutcomeEntry := { tag := 0, outcome := .none, count := 0, ringGen := 0 }

/-- A watch after power-on or RESET_SESSION (R115). -/
def Watch.off : Watch := { kind := .off, base := 0, mask := 0, count := 0, lastGen := 0 }

/-- A counter set at 0 (R13). -/
def CounterSet.zero : CounterSet := { reads := 0, writes := 0, withheld := 0 }

/-- No findings. -/
def Findings.none : Findings := { corrected := false, uncorrectable := false, poisoned := false, blank := false }

/-- What a job holds before it has gathered anything. -/
def JobData.empty : JobData :=
  { grid := none, poisoned := 0, imageGen := 0, key := none, header := none, record := none, target := 0,
    ringErased := false, aside := [], found := Findings.none, checkFound := false }

/-- The erased flash: every byte 0xFF, latch clear, nothing in progress (log 4). -/
def Flash.erased : Flash := { cells := [], latch := false, op := none }

/-- The machine at power-on, SYS_HOLD asserted, before POWER_ON runs the start-up load (log 3). -/
def State.reset : State :=
  { sysHold := true
    sysRst := false
    pfw := false
    lineMode := false
    attn := false
    lamp := { pattern := .released, lit := false }
    mode := .bypass
    layout := none
    upstream := none
    served := []
    shadow := false
    counters := List.replicate 10 CounterSet.zero
    intake := { lastTag := 0, lastResult := .accepted, recordCount := 0, closeOutIndex := 0,
                outcomes := List.replicate 9 OutcomeEntry.unused }
    session := { state := .dormant, station := 0, timeoutTens := 0, timeoutOnes := 0, prescale := 0, timer := .stopped,
                 lampRate := 0, lampDuration := 0, day := 0, seconds := 0, timeValid := false, openDay := 0,
                 openSeconds := 0, publishSeen := false }
    grid := Grid.empty
    frame0 := Frame.empty
    frame1 := Frame.empty
    engine := { state := .idle, results := [], largest := 0 }
    report := none
    classMap := []
    history := { stack := [], truncated := 0 }
    watches := List.replicate 4 Watch.off
    seq := { active := none, waiting := [], buffer := [], tally := [] }
    latest := none
    keys := List.replicate 16 KeyEntry.empty
    staging := Staging.idle
    region := { selected := none, classes := some [], directory := List.replicate 8 none, reason := 0 }
    conds := { records := [], counter := 0, known := [], mask := 0 }
    flash := Flash.erased
    draws := 0
    pending := [] }

/-! ## How a step can stop -/

/-- Faults. The manual names no event that stops the part (INVENTORY, Faults), so there is none: this type has no
constructor, and no command ends in a fault. Safe. -/
inductive Fault where
deriving DecidableEq, Repr

/-- Refusals. -/
inductive Refusal where
  /-- The host's: raised by `exec` for a command without a meaning. Every command has one, so nothing raises it. Safe:
  a refused command proves nothing. -/
  | notModelled (mnemonic : String)
deriving DecidableEq, Repr

end Sys2Proof.Machine
end

