-- ==== Sys2Proof/Machine/Ops.lean ====
section
/-! DEFINITION. The named operations every block shares: little-endian fields, the flash's memory and its erases and
programs (R3), saturating and wrapping counts, and list helpers for the part's tables. -/

namespace Sys2Proof.Machine

/-! ## Bytes and fields (00_scope.md 4) -/

/-- The `n` little-endian bytes of a number, modulo 256^n. -/
def le : Nat → Nat → List Byte
  | 0, _ => []
  | n + 1, v => BitVec.ofNat 8 v :: le n (v / 256)

/-- The number a run of little-endian bytes spells. -/
def unle : List Byte → Nat
  | [] => 0
  | b :: t => b.toNat + 256 * unle t

/-- `n` elements of a list from an offset on (fewer where the list ends). -/
def slice {α : Type} (l : List α) (off n : Nat) : List α := (l.drop off).take n

/-- The byte at an offset as a number, 0 beyond the end. -/
def byteAt (l : List Byte) (i : Nat) : Nat := (l.getD i 0).toNat

/-- The little-endian field of `n` bytes at an offset. -/
def fieldAt (l : List Byte) (off n : Nat) : Nat := unle (slice l off n)

/-- A run of bytes put over a list from an offset on. -/
def overwrite {α : Type} (l : List α) (off : Nat) (xs : List α) : List α :=
  l.take off ++ xs ++ l.drop (off + xs.length)

/-- A list brought to a length: cut there, or filled up with a value. -/
def padTo {α : Type} (n : Nat) (fill : α) (l : List α) : List α := l.take n ++ List.replicate (n - l.length) fill

/-- The signed number a byte holds in two's complement. -/
def signedByte (b : Byte) : Int := b.toInt

/-- The two's complement byte of a signed number. -/
def byteOfInt (c : Int) : Byte := BitVec.ofInt 8 c

/-- A mark as one byte. -/
def flagByte (b : Bool) : Byte := if b then 1 else 0

/-- The byte whose bit i is the i-th mark of a list, lowest bit first. -/
def bitsByte (bs : List Bool) : Byte :=
  BitVec.ofNat 8 (bs.foldr (fun b acc => (if b then 1 else 0) + 2 * acc) 0)

/-- A count raised by 1 that stops at `top`. -/
def satSucc (top n : Nat) : Nat := if n < top then n + 1 else n

/-- The entry of a table changed at an index (unchanged where the index is out of range). -/
def modifyAt {α : Type} (l : List α) (i : Nat) (f : α → α) : List α :=
  match l, i with
  | [], _ => []
  | x :: t, 0 => f x :: t
  | x :: t, i + 1 => x :: modifyAt t i f

/-- The quotient rounded up. -/
def ceilDiv (a b : Nat) : Nat := (a + b - 1) / b

/-! ## The flash's memory -/

/-- The flash's bytes: address and byte, addresses strictly rising, none of 0xFF. -/
abbrev Memory := List Host.Cell

/-- The size of the flash's address space, 16 MiB. -/
def flashSize : Nat := 16777216

/-- What an unlisted address reads as: the erased byte (R3, log 4). -/
def erasedByte : Byte := 0xFF

/-- The byte at an address. -/
def Memory.get : Memory → Nat → Byte
  | [], _ => erasedByte
  | (a, v) :: t, x => if x < a then erasedByte else if x = a then v else Memory.get t x

/-- The memory with one byte changed, in canonical form. -/
def Memory.set : Memory → Nat → Byte → Memory
  | [], x, v => if v = erasedByte then [] else [(x, v)]
  | (a, w) :: t, x, v =>
    if x < a then (if v = erasedByte then (a, w) :: t else (x, v) :: (a, w) :: t)
    else if x = a then (if v = erasedByte then t else (x, v) :: t)
    else (a, w) :: Memory.set t x v

/-- The memory with a range erased. -/
def Memory.erase (m : Memory) (base len : Nat) : Memory :=
  m.filter (fun c => decide (c.1 < base ∨ base + len ≤ c.1))

/-- The cells of a range. -/
def Memory.range (m : Memory) (base len : Nat) : Memory :=
  m.filter (fun c => decide (base ≤ c.1 ∧ c.1 < base + len))

/-- Several bytes changed, each address taken modulo the flash's size (log 36). -/
def Memory.setAll (m : Memory) : List Host.Cell → Memory
  | [] => m
  | (a, v) :: t => Memory.setAll (Memory.set m (a % flashSize) v) t

/-- The canonical form from an address on. -/
def Memory.wfFrom : Nat → Memory → Bool
  | _, [] => true
  | lo, (a, v) :: t => decide (lo ≤ a) && decide (a < flashSize) && decide (v ≠ erasedByte) && Memory.wfFrom (a + 1) t

/-- The canonical form: addresses strictly rising below 2^24, no entry equal to what an unlisted address reads as. -/
def Memory.wf (m : Memory) : Bool := Memory.wfFrom 0 m

/-- `n` bytes from an address on; 0xFFFFFF is followed by 0x000000 (R6). -/
def Memory.read (m : Memory) (base n : Nat) : List Byte :=
  (List.range n).map (fun i => Memory.get m ((base + i) % flashSize))

/-- The bytes of a run programmed one after another from an offset of a page on, each ANDed with what stands there;
offset 255 is followed by offset 0 (R3). -/
def Memory.programFrom (m : Memory) (page off : Nat) : List Byte → Memory
  | [] => m
  | b :: t =>
    Memory.programFrom (Memory.set m ((page + off) % flashSize) (Memory.get m ((page + off) % flashSize) &&& b))
      page ((off + 1) % 256) t

/-- The bytes a page program puts into a page: of more than 256, the last to reach each offset (R28, log 25). -/
def lastPage (data : List Byte) : List Byte := data.drop (data.length - 256)

/-- The memory after a page program at an address (R3). -/
def Memory.program (m : Memory) (addr : Nat) (data : List Byte) : Memory :=
  Memory.programFrom m (addr / 256 * 256) ((addr + (data.length - 256)) % 256) (lastPage data)

/-! ## The flash's commands (R3) -/

/-- The flash takes an erase of a range, if its latch is set; also, by the model's choice, while an operation is in progress,
which this one replaces (log 38). -/
def Flash.erase (f : Flash) (base len : Nat) : Flash :=
  if f.latch then
    { cells := Memory.erase f.cells base len, latch := false,
      op := some { base := base, len := len, before := Memory.range f.cells base len } }
  else f

/-- The flash takes a page program, if its latch is set; also, by the model's choice, while an operation is in progress,
which this one replaces (log 38). -/
def Flash.program (f : Flash) (addr : Nat) (data : List Byte) : Flash :=
  if f.latch then
    { cells := Memory.program f.cells addr data, latch := false,
      op := some { base := addr / 256 * 256, len := 256, before := Memory.range f.cells (addr / 256 * 256) 256 } }
  else f

/-- WRITE ENABLE or WRITE DISABLE reaches the flash; also, by the model's choice, while an operation is in progress
(log 38). -/
def Flash.setLatch (f : Flash) (on : Bool) : Flash := { f with latch := on }

/-- The flash's memory when power fails: where an operation is in progress, its range goes back to what stood there,
but for the bytes it had reached, which hold what the loss leaves (R3, log 7). -/
def Flash.cut (f : Flash) (reached : List Host.Cell) : Memory :=
  match f.op with
  | none => f.cells
  | some o =>
    Memory.setAll (Memory.setAll (Memory.erase f.cells o.base o.len) o.before)
      (reached.filter (fun c => decide (o.base ≤ c.1 ∧ c.1 < o.base + o.len)))

/-! ## The frame buffers as a pair -/

/-- A frame buffer by its number: 0 for `false`, 1 for `true`. -/
def State.frame (s : State) (i : Bool) : Frame := if i then s.frame1 else s.frame0

/-- A frame buffer replaced. -/
def State.setFrame (s : State) (i : Bool) (f : Frame) : State :=
  if i then { s with frame1 := f } else { s with frame0 := f }

/-- The buffer in a given state, buffer 0 first. -/
def State.frameIn (s : State) (st : FrameState) : Option Bool :=
  if s.frame0.state = st then some false else if s.frame1.state = st then some true else none

/-! ## Addresses -/

/-- The first address of the 4 KiB sector of an address. -/
def sectorOf (a : Nat) : Nat := a / 4096 * 4096

/-- The first address of the 64 KiB block of an address. -/
def blockOf (a : Nat) : Nat := a / 65536 * 65536

/-- The number of a plane: 0 LOW, 1 MID, 2 HIGH (R39). -/
def Plane.index : Plane → Nat
  | .low => 0
  | .mid => 1
  | .high => 2

/-- The plane of a number 0..2. -/
def planeOf : Nat → Option Plane
  | 0 => some .low
  | 1 => some .mid
  | 2 => some .high
  | _ => none

end Sys2Proof.Machine
end

