-- ==== Sys2Proof/Machine/Blocks.lean ====
section
/-! DEFINITION. The Block Check Unit: the check, the decode, poisoning and the sector tally's entries (09 §9.1 to 9.3). -/

namespace Sys2Proof.Machine

/-- The modulus of the check (R116). -/
def checkModulus : Nat := 65521

/-- The plain sum of data bytes. -/
def byteSum : List Byte → Nat
  | [] => 0
  | b :: t => b.toNat + byteSum t

/-- The sum of data bytes weighted by position, the first having weight `k`. -/
def weightedSum : Nat → List Byte → Nat
  | _, [] => 0
  | k, b :: t => k * b.toNat + weightedSum (k + 1) t

/-- A of R116. -/
def checkA (data : List Byte) : Nat := (1 + byteSum data) % checkModulus

/-- B of R116. -/
def checkB (data : List Byte) : Nat := weightedSum 1 data % checkModulus

/-- The four check bytes (R116). -/
def checkOf (data : List Byte) : List Byte := le 2 (checkA data) ++ le 2 (checkB data)

/-- The four check bytes of a block written poisoned (R119). -/
def poisonedCheckOf (data : List Byte) : List Byte :=
  le 2 ((checkA data + 32768) % checkModulus) ++ le 2 ((checkB data + 32768) % checkModulus)

/-- The syndrome of a computed and a stored value (R117). -/
def syndrome (computed stored : Nat) : Nat := (((computed : Int) - (stored : Int)) % (checkModulus : Int)).toNat

/-- A syndrome read as a signed error: small from 0 up, or just below the modulus (R118). -/
def windowed (bound syn : Nat) : Option Int :=
  if syn ≤ bound then some (syn : Int)
  else if checkModulus - bound ≤ syn then some ((syn : Int) - (checkModulus : Int))
  else none

/-- The single-byte path (R118). -/
def singleByte (data : List Byte) (sA sB : Nat) : Decode :=
  match windowed 255 sA, windowed (255 * data.length) sB with
  | some e, some v =>
    let k := v / e
    let b : Int := (byteAt data (k - 1).toNat : Int) - e
    if k * e = v ∧ 1 ≤ k ∧ k ≤ (data.length : Int) ∧ 0 ≤ b ∧ b ≤ 255 then
      .repaired (k - 1).toNat (byteOfInt b)
    else .uncorrectable
  | _, _ => .uncorrectable

/-- The decode of a block from its data and check bytes as read (R117). -/
def decodeBlock (data check : List Byte) : Decode :=
  if (data ++ check).all (fun b => b == erasedByte) then .blank
  else
    let sA := syndrome (checkA data) (fieldAt check 0 2)
    let sB := syndrome (checkB data) (fieldAt check 2 2)
    if sA = 0 ∧ sB = 0 then .good
    else if sA = 32753 ∧ sB = 32753 then .poisoned
    else if sA = 0 ∨ sB = 0 then .checkOnly
    else singleByte data sA sB

/-- The data a reader uses: as read, or with the one byte repaired (R117). -/
def repairData (data : List Byte) : Decode → List Byte
  | .repaired i b => data.set i b
  | _ => data

/-- The manual's CORRECTED. -/
def Decode.corrected : Decode → Bool
  | .checkOnly => true
  | .repaired _ _ => true
  | _ => false

/-- GOOD or CORRECTED: the block has trustworthy data (R117). -/
def Decode.trusted : Decode → Bool
  | .good => true
  | d => d.corrected

/-- The decode of the embedded block in 64 bytes (R116). -/
def decodeEmbedded (bytes : List Byte) : Decode := decodeBlock (slice bytes 0 60) (slice bytes 60 4)

/-- The 60 data bytes of an embedded block in 64 bytes, with any repair. -/
def embeddedData (bytes : List Byte) : List Byte := repairData (slice bytes 0 60) (decodeEmbedded bytes)

/-- Data bytes made an embedded block of 64 bytes: zero-filled to 60, with their check (R116). -/
def embedBlock (data : List Byte) : List Byte :=
  let d := padTo 60 0 data
  d ++ checkOf d

/-- The 64-byte blocks of a run of bytes. -/
def blocksOf (bytes : List Byte) : List (List Byte) :=
  (List.range (bytes.length / 64)).map (fun i => slice bytes (64 * i) 64)

/-- The entry the tally gives up when it is full: the lowest count, the oldest among equals (R121). -/
def tallyVictim : List TallyEntry → Option Nat
  | [] => none
  | e :: t =>
    match tallyVictim t with
    | none => some 0
    | some j => if e.count ≤ (t.getD j e).count then some 0 else some (j + 1)

/-- The tally after one correction in a sector, and whether the sector is now to be reported DEGRADED (R121). -/
def tallyCorrection (tally : List TallyEntry) (sector : Nat) : List TallyEntry × Bool :=
  match tally.findIdx? (fun e => e.sector == sector) with
  | some i =>
    let old := tally.getD i { sector := sector, count := 0, reported := false }
    let n := satSucc 255 old.count
    let due := decide (3 ≤ n) && !old.reported
    (tally.set i { old with count := n, reported := old.reported || due }, due)
  | none =>
    let kept :=
      if tally.length < 16 then tally
      else match tallyVictim tally with
        | some j => tally.eraseIdx j
        | none => tally
    (kept ++ [{ sector := sector, count := 1, reported := false }], false)

end Sys2Proof.Machine
end

