-- ==== Sys2Proof/Machine/Layouts.lean ====
section
/-! DEFINITION. Windows and the layouts of 03 §3.6: where each area lies, and how commit records, profile headers and the
Layout Descriptor stand in their blocks. -/

namespace Sys2Proof.Machine

/-! ## The Layout Descriptor and the Window Table (R16) -/

/-- The base of the DESCRIPTOR window. -/
def descriptorBase : Nat := 0xFFF000

/-- The size of each window (02 §2.2); PASS has none. -/
def Window.size : Window → Nat
  | .pass => 0
  | .descriptor => 4096
  | .panel => 28672
  | .panelCheck => 4096
  | .aperture => 65536
  | .keys => 8192
  | .park => 40960
  | .ring => 8192
  | .profiles => 524288
  | .remap => 65536

/-- The base of each window in a layout. -/
def Layout.base (l : Layout) : Window → Nat
  | .pass => 0
  | .descriptor => descriptorBase
  | .panel => l.panel
  | .panelCheck => l.panelCheck
  | .aperture => l.aperture
  | .keys => l.keys
  | .park => l.park
  | .ring => l.ring
  | .profiles => l.profiles
  | .remap => l.remap

/-- The nine windows in the order of 02 §2.2. -/
def nineWindows : List Window :=
  [.descriptor, .panel, .panelCheck, .aperture, .keys, .park, .ring, .profiles, .remap]

/-- The alignment each base must have (02 §2.2). -/
def Window.alignment : Window → Nat
  | .aperture => 65536
  | .profiles => 65536
  | .remap => 65536
  | _ => 4096

/-- The index of a window's counter set: PASS, then the nine windows (page 6, 03 §3.6). -/
def Window.index : Window → Nat
  | .pass => 0
  | .descriptor => 1
  | .panel => 2
  | .panelCheck => 3
  | .aperture => 4
  | .keys => 5
  | .park => 6
  | .ring => 7
  | .profiles => 8
  | .remap => 9

/-- An address lies in a window of a layout (R16). -/
def Layout.inWindow (l : Layout) (w : Window) (a : Nat) : Bool :=
  decide (l.base w ≤ a) && decide (a < l.base w + w.size)

/-- The window of an address in a layout; an address in none is PASS. -/
def Layout.windowOf (l : Layout) (a : Nat) : Window :=
  (nineWindows.find? (fun w => l.inWindow w a)).getD .pass

/-- Two windows share no address. -/
def Layout.disjoint (l : Layout) (v w : Window) : Bool :=
  decide (l.base v + v.size ≤ l.base w) || decide (l.base w + w.size ≤ l.base v)

/-- Each window of a list is disjoint from every later one. -/
def Layout.pairwiseDisjoint (l : Layout) : List Window → Bool
  | [] => true
  | w :: t => t.all (fun v => l.disjoint w v) && Layout.pairwiseDisjoint l t

/-- Conditions 3 to 5 of R16: alignment, inside the 16 MiB, no overlap. -/
def Layout.valid (l : Layout) : Bool :=
  nineWindows.all (fun w => decide (l.base w % w.alignment = 0) && decide (l.base w + w.size ≤ flashSize))
    && l.pairwiseDisjoint nineWindows

/-- The bases of a descriptor's data bytes. -/
def layoutOf (d : List Byte) : Layout :=
  { panel := fieldAt d 4 3, panelCheck := fieldAt d 7 3, aperture := fieldAt d 10 3, keys := fieldAt d 13 3,
    park := fieldAt d 16 3, ring := fieldAt d 19 3, profiles := fieldAt d 22 3, remap := fieldAt d 25 3 }

/-- The layout a descriptor block gives, if it is valid (R16). -/
def descriptorLayout (block : List Byte) : Option Layout :=
  let d := embeddedData block
  if (decodeEmbedded block).trusted && byteAt d 0 == 0xE6 && byteAt d 1 == 0x20 && byteAt d 2 == 1 && byteAt d 3 == 24
      && (layoutOf d).valid then
    some (layoutOf d)
  else none

/-! ## Commit records (03 §3.6) -/

/-- The kind byte of a commit record. -/
def RecordKind.code : RecordKind → Nat
  | .uniformity => 1
  | .park => 2
  | .keys => 3
  | .region => 4
  | .closeOut => 5

/-- A flag's weight in the flags byte. -/
def flagBit (b : Bool) (weight : Nat) : Nat := if b then weight else 0

/-- The flags byte of a commit record; that its bits 5 to 7 are written 0 is the model's choice (DESIGN CHOICE, unsafe,
log 46). -/
def CommitRecord.flags (r : CommitRecord) : Nat :=
  flagBit r.closed 1 + flagBit r.regionValid 2 + flagBit r.timeValid 4 + flagBit r.uniformityValid 8
    + flagBit r.parkValid 16

/-- The 60 data bytes of a commit record. -/
def CommitRecord.data (r : CommitRecord) : List Byte :=
  [0xC7, BitVec.ofNat 8 r.kind, BitVec.ofNat 8 r.flags, BitVec.ofNat 8 r.station]
    ++ le 4 r.ringGen ++ le 4 r.uniGen ++ le 4 r.uniLength
    ++ [BitVec.ofNat 8 r.width, BitVec.ofNat 8 r.shift, BitVec.ofNat 8 r.cols, BitVec.ofNat 8 r.rows]
    ++ le 2 r.poisoned ++ le 4 r.parkGen ++ le 4 r.parkImage
    ++ [BitVec.ofNat 8 r.regionSlot, BitVec.ofNat 8 r.profileId]
    ++ le 2 r.regionScale ++ le 2 r.keySet ++ le 2 r.day ++ le 4 r.seconds ++ le 2 r.unknown
    ++ List.replicate 16 0

/-- The commit record of 60 data bytes. -/
def commitRecordOf (d : List Byte) : CommitRecord :=
  { kind := byteAt d 1
    closed := (byteAt d 2).testBit 0
    regionValid := (byteAt d 2).testBit 1
    timeValid := (byteAt d 2).testBit 2
    uniformityValid := (byteAt d 2).testBit 3
    parkValid := (byteAt d 2).testBit 4
    station := byteAt d 3
    ringGen := fieldAt d 4 4
    uniGen := fieldAt d 8 4
    uniLength := fieldAt d 12 4
    width := byteAt d 16
    shift := byteAt d 17
    cols := byteAt d 18
    rows := byteAt d 19
    poisoned := fieldAt d 20 2
    parkGen := fieldAt d 22 4
    parkImage := fieldAt d 26 4
    regionSlot := byteAt d 30
    profileId := byteAt d 31
    regionScale := fieldAt d 32 2
    keySet := fieldAt d 34 2
    day := fieldAt d 36 2
    seconds := fieldAt d 38 4
    unknown := fieldAt d 42 2 }

/-- The commit record a ring slot's 64 bytes hold, if it is valid: GOOD or CORRECTED with magic 0xC7 (R135). -/
def ringRecord (block : List Byte) : Option CommitRecord :=
  let d := embeddedData block
  if (decodeEmbedded block).trusted && byteAt d 0 == 0xC7 then some (commitRecordOf d) else none

/-- The base an append copies when the latest-record state is empty (R136). -/
def CommitRecord.base : CommitRecord :=
  { kind := 0, closed := false, regionValid := false, timeValid := false, uniformityValid := false, parkValid := false,
    station := 0, ringGen := 0, uniGen := 0, uniLength := 0, width := 0, shift := 0, cols := 0, rows := 0,
    poisoned := 0, parkGen := 0, parkImage := 0, regionSlot := 0xFF, profileId := 0, regionScale := 256, keySet := 0,
    day := 0, seconds := 0, unknown := 0 }

/-- The first address of a ring slot (R135). -/
def ringSlotAddr (l : Layout) (slot : Nat) : Nat := l.ring + 64 * slot

/-- The latest of the valid records of the ring: the highest generation, the lower slot among equals (R135). -/
def latestOf : List (Nat × Option CommitRecord) → Option Latest
  | [] => none
  | (i, some r) :: t =>
    match latestOf t with
    | none => some { slot := i, record := r }
    | some best => if best.record.ringGen ≤ r.ringGen then some { slot := i, record := r } else some best
  | (_, none) :: t => latestOf t

/-! ## Profile headers (R168) -/

/-- The profile header a slot's first 64 bytes hold, if it is valid. A class listed twice counts once (log 28). -/
def profileHeader (block : List Byte) : Option ProfileHeader :=
  let d := embeddedData block
  let id := byteAt d 2
  let scale := fieldAt d 3 2
  let count := byteAt d 5
  let classes := (slice d 6 count).map BitVec.toNat
  if (decodeEmbedded block).trusted && byteAt d 0 == 0x52 && byteAt d 1 == 0x47
      && decide (1 ≤ id ∧ id ≤ 254) && decide (128 ≤ scale ∧ scale ≤ 256) && decide (count ≤ 8)
      && classes.all (fun c => decide (1 ≤ c ∧ c ≤ 15)) then
    some { id := id, scale := scale, classes := classes.eraseDups }
  else none

/-- The first address of a profile slot. -/
def profileAddr (l : Layout) (slot : Nat) : Nat := l.profiles + 65536 * slot

/-! ## Key slots (R153) -/

/-- The first address of a key slot. -/
def keySlotAddr (l : Layout) (slot : Nat) : Nat := l.keys + 512 * slot

/-- The entry a key slot's header gives, if the header is valid: its block 0 decodes GOOD or CORRECTED, its magic and slot
index match, and its class and length are in range (R153). `data` is block 0's data with any repair. -/
def keyHeader (slot : Nat) (d0 : Decode) (data : List Byte) : Option KeyEntry :=
  if d0.trusted && byteAt data 0 == 0x4B && byteAt data 1 == slot && decide (1 ≤ byteAt data 2 ∧ byteAt data 2 ≤ 15)
      && decide (16 ≤ fieldAt data 4 2 ∧ fieldAt data 4 2 ≤ 448) then
    some { KeyEntry.empty with
      state := .present, cls := byteAt data 2, station := byteAt data 3, length := fieldAt data 4 2,
      day := fieldAt data 6 2, seconds := fieldAt data 8 4 }
  else none

/-- The 512 bytes of a key slot from its 480 data bytes: eight embedded blocks (R153). -/
def keySlotBytes (data : List Byte) : List Byte :=
  ((List.range 8).map (fun j => embedBlock (slice data (60 * j) 60))).flatten

/-- The 480 data bytes the part writes into a key slot (R153). -/
def keySlotData (slot : Nat) (e : KeyEntry) (payload : List Byte) : List Byte :=
  [0x4B, BitVec.ofNat 8 slot, BitVec.ofNat 8 e.cls, BitVec.ofNat 8 e.station] ++ le 2 e.length ++ le 2 e.day
    ++ le 4 e.seconds ++ List.replicate 4 0 ++ padTo 448 0 (payload.take e.length) ++ List.replicate 16 0

end Sys2Proof.Machine
end

