-- ==== Sys2Proof/Machine/Conditions.lean ====
section
/-! DEFINITION. The Condition Queue: taking a report, retiring, masks and the power-fail warning (13). -/

namespace Sys2Proof.Machine

/-- A report as its source hands it over (R178). -/
structure Report where
  cls : CondClass
  address : Option Nat := none
  slot : Option Nat := none
  command : Option Byte := none
  indirect : Bool := false
  parkNotQueued : Bool := false
deriving DecidableEq, Repr

/-- The code of a condition class (13 §13.1). -/
def CondClass.code : CondClass → Nat
  | .descriptor => 1
  | .storeUncorrected => 2
  | .storeCorrected => 3
  | .degraded => 4
  | .keyDamage => 5
  | .collision => 6
  | .laneRefused => 7
  | .warning => 8
  | .sessionLapse => 9
  | .jobFailed => 10

/-- What decides, with the class, whether a report merges (R178). -/
inductive MergeKey where
  /-- Class-keyed. -/
  | cls
  /-- Slot-keyed. -/
  | slot (slot : Option Nat)
  /-- Sector-keyed: the sector of the failing address, or none when ADDRESS is not valid. -/
  | sector (sector : Option Nat)
deriving DecidableEq, Repr

/-- The merge key of a class, address and slot (R178). -/
def mergeKey (cls : CondClass) (address slot : Option Nat) : MergeKey :=
  match cls with
  | .descriptor => .cls
  | .warning => .cls
  | .sessionLapse => .cls
  | .keyDamage => .slot slot
  | .storeUncorrected => .sector (address.map sectorOf)
  | .storeCorrected => .sector (address.map sectorOf)
  | .degraded => .sector (address.map sectorOf)
  | .collision => .sector (address.map sectorOf)
  | .laneRefused => .sector (address.map sectorOf)
  | .jobFailed => .sector (address.map sectorOf)

/-- A queued record has a report's class and merge key (R179 step 2). -/
def CondRecord.joins (c : CondRecord) (r : Report) : Bool :=
  decide (c.cls = r.cls) && decide (mergeKey c.cls c.address c.slot = mergeKey r.cls r.address r.slot)

/-- Whether a report gains ANCILLARY, and the known-fault list after it (R179 step 1). -/
def knownFault (known : List Nat) (r : Report) : Bool × List Nat :=
  match r.cls, r.address with
  | .storeUncorrected, some a =>
    if known.contains (sectorOf a) then (true, known)
    else if 8 ≤ known.length then (false, known.drop (known.length - 7) ++ [sectorOf a])
    else (false, known ++ [sectorOf a])
  | _, _ => (false, known)

/-- A report merged into a record (R179 step 2). -/
def CondRecord.merge (c : CondRecord) (r : Report) : CondRecord :=
  { c with repeats := satSucc 255 c.repeats, indirect := c.indirect || r.indirect,
           parkNotQueued := c.parkNotQueued || r.parkNotQueued }

/-- A record that marks a loss behind it: OVERFLOW, and PARK_NOT_QUEUED where the lost report carried it (R179 step 4). -/
def CondRecord.overflowed (c : CondRecord) (parkNotQueued : Bool) : CondRecord :=
  { c with overflow := true, parkNotQueued := c.parkNotQueued || parkNotQueued }

/-- The first record a report joins, merged with it. -/
def mergeFirst (r : Report) : List CondRecord → List CondRecord
  | [] => []
  | c :: t => if c.joins r then c.merge r :: t else c :: mergeFirst r t

/-- The last record of a queue changed. -/
def modifyLast (f : CondRecord → CondRecord) : List CondRecord → List CondRecord
  | [] => []
  | [c] => [f c]
  | c :: d :: t => c :: modifyLast f (d :: t)

/-- The record a report makes (R178, R179 step 3). -/
def State.newRecord (s : State) (r : Report) (ancillary : Bool) (seq : Nat) : CondRecord :=
  { seq := seq, cls := r.cls, indirect := r.indirect, ancillary := ancillary, overflow := false,
    parkNotQueued := r.parkNotQueued, address := r.address, slot := r.slot, command := r.command, repeats := 1,
    timeValid := s.session.timeValid,
    day := if s.session.timeValid then s.session.day else 0,
    seconds := if s.session.timeValid then s.session.seconds else 0,
    mode := s.mode }

/-- The Condition Queue takes a report (R179). -/
def State.raise (s : State) (r : Report) : State :=
  let k := knownFault s.conds.known r
  let q := s.conds.records
  let c := { s.conds with known := k.2 }
  if q.any (fun x => x.joins r) then
    { s with conds := { c with records := mergeFirst r q } }
  else if q.length < 16 then
    let n := (s.conds.counter + 1) % 65536
    { s with conds := { c with records := q ++ [s.newRecord r k.1 n], counter := n } }
  else
    { s with conds := { c with records := modifyLast (fun x => x.overflowed r.parkNotQueued) q } }

/-- Several reports taken in turn. -/
def State.raiseAll (s : State) : List Report → State
  | [] => s
  | r :: t => State.raiseAll (s.raise r) t

/-- The bits of the maskable classes 2..4 and 6..10 (R182). -/
def maskable : BitVec 16 := 0x07DC

/-- A class is masked (R182). -/
def Conditions.masked (c : Conditions) (cls : CondClass) : Bool := c.mask.getLsbD cls.code

/-- ATTN as the queue and the mask set give it (R182). -/
def Conditions.attn (c : Conditions) : Bool := c.records.any (fun r => !c.masked r.cls)

/-- A record that takes over the loss marks of a removed one (R181). -/
def CondRecord.inherits (c w : CondRecord) : CondRecord :=
  { c with overflow := c.overflow || w.overflow, parkNotQueued := c.parkNotQueued || w.parkNotQueued }

/-- The WARNING record withdrawn, its loss marks passed to the newest record left (R181). Where it was the only record there
is none to take them, and they are gone (log 42). -/
def withdrawWarning (q : List CondRecord) : List CondRecord :=
  match q.find? (fun r => decide (r.cls = .warning)) with
  | none => q
  | some w =>
    modifyLast (fun x => x.inherits w) (q.eraseP (fun r => decide (r.cls = .warning)))

/-- PFW asserts: the sequencer sees the level, the queue takes a WARNING, which merges into one still queued (R128, R181). -/
def State.pfwRise (s : State) : State := State.raise { s with pfw := true } { cls := .warning }

end Sys2Proof.Machine
end

