-- ==== Sys2Proof/Machine/Flags.lean ====
section
/-! DEFINITION. The marks and lines the manual computes from other state: clean and unsaved (R52), the occupied period
(R10), RUNNING or PAUSED (R128), idleness and the idle timer (R21), ATTN (R182) and the lamp pattern (R26). -/

namespace Sys2Proof.Machine

/-! ## Marks -/

/-- An occupied period is running (R10): the job in progress has its erase or program on the downstream lane. -/
def State.occupied (s : State) : Bool :=
  match s.seq.active with
  | some a => decide (a.phase = .occupied)
  | none => false

/-- The step is an erase or a program. -/
def Step.writes : Step → Bool
  | .read _ _ _ => false
  | .erase _ => true
  | .program _ _ => true

/-- The job in progress is PAUSED: PFW is asserted and its next step is an erase or program not yet begun (R128). -/
def State.jobPaused (s : State) : Bool :=
  match s.seq.active with
  | some a => s.pfw && decide (a.phase ≠ .occupied) && (match a.todo with | st :: _ => st.writes | [] => false)
  | none => false

/-- A job is in progress, RUNNING or PAUSED. -/
def State.jobInProgress (s : State) : Bool := s.seq.active.isSome

/-- A CLOSE_OUT job is in progress (R175). -/
def State.closingOut (s : State) : Bool :=
  match s.seq.active with
  | some a => decide (a.job.kind = .closeOut)
  | none => false

/-- Four jobs are waiting (R122). -/
def State.queueFull (s : State) : Bool := decide (4 ≤ s.seq.waiting.length)

/-- Some frame buffer is in a state. -/
def State.anyFrame (s : State) (st : FrameState) : Bool :=
  decide (s.frame0.state = st) || decide (s.frame1.state = st)

/-- No frame buffer is FILLING, QUEUED or SOLVING. -/
def State.framesFree (s : State) : Bool :=
  decide (s.frame0.state = .free) && decide (s.frame1.state = .free)

/-- The part is idle (R21). -/
def State.partIdle (s : State) : Bool := !s.jobInProgress && !s.anyFrame .solving

/-- The latest commit record carries the closed flag (R166, R171). -/
def State.closedFlag (s : State) : Bool :=
  match s.latest with
  | some l => l.record.closed
  | none => false

/-- The uniformity grid generation of the latest record, when it carries the flag. -/
def State.uniGen? (s : State) : Option Nat :=
  match s.latest with
  | some l => if l.record.uniformityValid then some l.record.uniGen else none
  | none => none

/-- The park grid generation of the latest record, when it carries the flag. -/
def State.parkGen? (s : State) : Option Nat :=
  match s.latest with
  | some l => if l.record.parkValid then some l.record.parkGen else none
  | none => none

/-- The grid is clean (R52). -/
def State.clean (s : State) : Bool := decide (s.uniGen? = some s.grid.generation)

/-- The grid is unsaved (R52). -/
def State.unsaved (s : State) : Bool :=
  s.grid.geometry.isSome && decide (s.uniGen? ≠ some s.grid.generation) && decide (s.parkGen? ≠ some s.grid.generation)

/-- The count of marked zone-planes (R41). -/
def Grid.markCount (g : Grid) : Nat := g.marks.count true

/-- The greatest generation (R44). -/
def genMax : Nat := 4294967295

/-- No new generation can be taken (R44). -/
def Grid.exhausted (g : Grid) : Bool := decide (genMax ≤ g.genMark)

/-- The region scale in force, 256 while no region is selected (R61). -/
def State.scale (s : State) : Nat :=
  match s.region.selected with
  | some r => r.scale
  | none => 256

/-- An upstream transaction that is not ignored is in progress (R124, log 16). -/
def State.laneBusy (s : State) : Bool :=
  match s.upstream with
  | some t => !t.ignored
  | none => false

/-! ## The idle timer (R21) -/

/-- The idle timeout in seconds (R21). -/
def Session.timeout (n : Session) : Nat :=
  (10 * n.timeoutTens + n.timeoutOnes) * (if n.prescale = 0 then 1 else 10)

/-- The idle timer as the session state, the timeout and idleness give it (R21). -/
def State.timerNow (s : State) : IdleTimer :=
  if s.session.state ≠ .opened then .stopped
  else if s.session.timeout = 0 then .stopped
  else if s.partIdle then .running s.session.timeout
  else .held

/-! ## The lamp (R26) -/

/-- The lamp durations of codes 0 to 3, in 1/4 ms: 250, 125, 62.5, 31.25 ms (R20). -/
def lampQuarters : Nat → Nat
  | 0 => 1000
  | 1 => 500
  | 2 => 250
  | _ => 125

/-- Half the period of a rate code, in 1/4 ms: 0.5, 1, 2, 4 Hz (R20). -/
def halfPeriodQuarters : Nat → Nat
  | 0 => 4000
  | 1 => 2000
  | 2 => 1000
  | _ => 500

/-- The duration code used for a stored rate and duration: the stored one when it is shorter than half the period, else
the longest of the four that is (R26). -/
def lampDurationUsed (rate duration : Nat) : Nat :=
  if lampQuarters duration < halfPeriodQuarters rate then duration
  else ([0, 1, 2, 3].find? (fun d => decide (lampQuarters d < halfPeriodQuarters rate))).getD 3

/-- The pattern the list of R26 chooses, for a given ATTN. -/
def State.lampPattern (s : State) (attn : Bool) : LampPattern :=
  if s.sysHold || decide (s.mode ≠ .commissioning) then .released
  else if attn then .flash 3 2
  else match s.session.state with
    | .closed => .steady
    | .lapsed => .flash 0 0
    | .opened =>
      if s.jobInProgress then .flash 2 1
      else .flash s.session.lampRate (lampDurationUsed s.session.lampRate s.session.lampDuration)
    | .dormant => .off

/-- The lamp is lit when a pattern starts (R26). -/
def LampPattern.startsLit : LampPattern → Bool
  | .released => false
  | .off => false
  | .steady => true
  | .flash _ _ => true

/-- The lamp after its pattern is chosen again: a changed pattern starts a fresh period (R26). -/
def Lamp.choose (l : Lamp) (p : LampPattern) : Lamp :=
  if l.pattern = p then l else { pattern := p, lit := p.startsLit }

/-- The lines and the timer that follow the rest of the state, judged afresh at the end of a command: ATTN (R182), the
lamp (R26) and the idle timer (R21). -/
def State.settle (s : State) : State :=
  { s with attn := s.conds.attn
           lamp := s.lamp.choose (s.lampPattern s.conds.attn)
           session := { s.session with timer := s.timerNow } }

end Sys2Proof.Machine
end

