-- ==== Sys2Proof/Machine/Grid.lean ====
section
/-! DEFINITION. The zone grid: where zone-planes stand, new generations, and the Correction History's push and pop
(04, 07). -/

namespace Sys2Proof.Machine

/-- Columns of the geometry, 0 while unset. -/
def Grid.cols (g : Grid) : Nat := match g.geometry with | some q => q.cols | none => 0

/-- Rows of the geometry, 0 while unset. -/
def Grid.rows (g : Grid) : Nat := match g.geometry with | some q => q.rows | none => 0

/-- Zones of the geometry, X times Y. -/
def Grid.zones (g : Grid) : Nat := g.cols * g.rows

/-- The plane record of a plane (R48). -/
def Grid.planeRecord (g : Grid) : Plane → Option PlaneRecord
  | .low => g.low
  | .mid => g.mid
  | .high => g.high

/-- A plane record set (R48). -/
def Grid.setPlane (g : Grid) (p : Plane) (r : PlaneRecord) : Grid :=
  match p with
  | .low => { g with low := some r }
  | .mid => { g with mid := some r }
  | .high => { g with high := some r }

/-- The code index of a zone at a plane (R105). -/
def Grid.codeIndex (g : Grid) (p : Plane) (x y : Nat) : Nat := p.index * g.zones + y * g.cols + x

/-- The code indexes of a rectangle's zones at a plane, in slot order (05 §5.1). -/
def Grid.rectIndexes (g : Grid) (p : Plane) (r : Rect) : List Nat :=
  (List.range (r.w * r.h)).map (fun i => g.codeIndex p (r.x0 + i % r.w) (r.y0 + i / r.w))

/-- Values put at given indexes of a list, in turn. -/
def putAt {α : Type} (l : List α) : List (Nat × α) → List α
  | [] => l
  | (i, v) :: t => putAt (l.set i v) t

/-- The values at given indexes of a list. -/
def pickAt {α : Type} (l : List α) (fill : α) (is : List Nat) : List α := is.map (fun i => l.getD i fill)

/-- A new grid generation is taken: the generation mark plus 1, which becomes the mark (R43). -/
def Grid.newGeneration (g : Grid) : Grid := { g with generation := g.genMark + 1, genMark := g.genMark + 1 }

/-- The payload of an entry in bytes (R89). -/
def HistoryEntry.payload (e : HistoryEntry) : Nat := e.rect.w * e.rect.h + ceilDiv (e.rect.w * e.rect.h) 8

/-- The payload total of a stack (R89). -/
def payloadTotal : List HistoryEntry → Nat
  | [] => 0
  | e :: t => e.payload + payloadTotal t

/-- The bounds of the stack for an entry about to be pushed (R90 step 2). -/
def fitsPush (p : Nat) (stack : List HistoryEntry) : Bool :=
  decide (stack.length < 8) && decide (payloadTotal stack + p ≤ 18432)

/-- The longest top part of a stack, top first, that leaves room for an entry of payload `p`: entries go from the bottom
until both bounds hold (R90). `n` bounds how many entries are looked at. -/
def keepTop (p : Nat) (stack : List HistoryEntry) : Nat → List HistoryEntry
  | 0 => []
  | n + 1 => if fitsPush p (stack.take (n + 1)) then stack.take (n + 1) else keepTop p stack n

/-- The history with an entry pushed (R90, R91). -/
def History.push (h : History) (e : HistoryEntry) : History :=
  let kept := keepTop e.payload h.stack h.stack.length
  { stack := e :: kept, truncated := min 65535 (h.truncated + (h.stack.length - kept.length)) }

/-- The history with its stack cleared; the truncation count stays (R97). -/
def History.clear (h : History) : History := { h with stack := [] }

/-- An accepted ROLLBACK's change: the top entry leaves the stack, its codes and marks come back, a new generation is
taken (R93). -/
def State.popHistory (s : State) : State :=
  match s.history.stack with
  | [] => s
  | e :: t =>
    let is := s.grid.rectIndexes e.plane e.rect
    { s with
      history := { s.history with stack := t }
      grid := ({ s.grid with codes := putAt s.grid.codes (is.zip e.codes),
                             marks := putAt s.grid.marks (is.zip e.marks) }).newGeneration }

end Sys2Proof.Machine
end

