-- ==== Sys2Proof/Machine/Solve.lean ====
section
/-! DEFINITION. The Solve Engine: the arithmetic of one zone, the publish and the discard (06). -/

namespace Sys2Proof.Machine

/-! ## The arithmetic of one zone (R71 to R76) -/

/-- A measured value counts as missing when it has no present mark or is 0 or 65535 (R71). -/
def measuredValue (m : Option Nat) : Option Nat :=
  match m with
  | some v => if v = 0 ∨ v = 65535 then none else some v
  | none => none

/-- The size of the adjustment for a deviation of size `d` (R73, R74). -/
def adjustSize (rounding : Rounding) (slope d : Nat) : Nat :=
  match rounding with
  | .nearest => (8 * d + slope) / (2 * slope)
  | .towardZero => 4 * d / slope

/-- The adjustment A of a measurement outside the band (R73, R74). -/
def adjustment (n : Snapshot) (m : Nat) : Int :=
  let d : Int := (n.tEff : Int) - (m : Int)
  d.sign * (adjustSize n.rounding n.slope d.natAbs : Int)

/-- A measurement lies in the tolerance band (R72). Subtraction on naturals floors the lower edge at 0. -/
def Snapshot.inBand (n : Snapshot) (m : Nat) : Bool := decide (n.tEff - n.tolLo ≤ m) && decide (m ≤ n.tEff + n.tolHi)

/-- One zone's preliminary class and limited adjustment, and the size of its adjustment before the limit (R71 to R76). -/
def solveZone (n : Snapshot) (m : Option Nat) : ZoneResult × Nat :=
  match measuredValue m with
  | none => ({ cls := .unmeasured, adjust := 0 }, 0)
  | some v =>
    if n.inBand v then ({ cls := .inBand, adjust := 0 }, 0)
    else
      let a := adjustment n v
      if n.limit < a.natAbs then ({ cls := .partialMove, adjust := a.sign * (n.limit : Int) }, a.natAbs)
      else ({ cls := .adjusted, adjust := a }, a.natAbs)

/-- The working results of a frame (R69, R70): every slot solved, and the largest adjustment (R76). -/
def solveFrame (f : Frame) : List ZoneResult × Nat :=
  match f.snapshot with
  | none => ([], 0)
  | some n =>
    let rs := f.slots.map (solveZone n)
    (rs.map Prod.fst, (rs.map Prod.snd).foldl max 0)

/-! ## The publish (R79 to R83) -/

/-- The new code and final class of one zone from its standing code and working result (R80). -/
def publishZone (code : Int) (r : ZoneResult) : Int × ZoneClass :=
  match r.cls with
  | .unmeasured => (code, .unmeasured)
  | .inBand => (code, .inBand)
  | c =>
    if 127 < code + r.adjust then (127, .saturated)
    else if code + r.adjust < -128 then (-128, .saturated)
    else (code + r.adjust, c)

/-- The unknown mark of a zone after the publish (R81). -/
def publishMark (mark : Bool) : ZoneClass → Bool
  | .unmeasured => mark
  | _ => false

/-- The least of a list of codes, the first being given. -/
def leastCode : Int → List Int → Int
  | m, [] => m
  | m, c :: t => leastCode (if c < m then c else m) t

/-- The greatest of a list of codes, the first being given. -/
def greatestCode : Int → List Int → Int
  | m, [] => m
  | m, c :: t => greatestCode (if m < c then c else m) t

/-- The zone index of a rectangle's zones, in slot order (R39). -/
def Grid.zoneIndexes (g : Grid) (r : Rect) : List Nat :=
  (List.range (r.w * r.h)).map (fun i => (r.y0 + i / r.w) * g.cols + (r.x0 + i % r.w))

/-- The outcome table with an ending written into an entry (R34). -/
def recordOutcome (l : List OutcomeEntry) (i : Nat) (tag : Byte) (o : JobOutcome) (ringGen : Nat) : List OutcomeEntry :=
  modifyAt l i (fun e => { tag := tag, outcome := o, count := (e.count + 1) % 256, ringGen := ringGen })

/-- The SOLVE entry of the outcome table (R34). -/
def solveEntry : Nat := 8

/-- The engine takes a QUEUED frame when it is IDLE (R63, R69). -/
def State.takeFrame (s : State) : State :=
  if s.engine.state = .idle then
    match s.frameIn .queued with
    | some i =>
      let s1 := s.setFrame i { s.frame i with state := .solving }
      { s1 with engine := { state := .computing, results := [], largest := 0 } }
    | none => s
  else s

/-- The publish of the frame in a SOLVING buffer (R79): history entry, codes, marks, class map, report, generation,
outcome, publish-seen, and the buffer FREE. -/
def State.publishFrame (s : State) (i : Bool) : State :=
  let f := s.frame i
  let is := s.grid.rectIndexes f.plane f.rect
  let oldCodes := pickAt s.grid.codes 0 is
  let oldMarks := pickAt s.grid.marks false is
  let new := List.zipWith publishZone oldCodes s.engine.results
  let newCodes := new.map Prod.fst
  let classes := new.map Prod.snd
  let grid := ({ s.grid with codes := putAt s.grid.codes (is.zip newCodes),
                             marks := putAt s.grid.marks (is.zip (List.zipWith publishMark oldMarks classes)) }).newGeneration
  let s1 := s.setFrame i Frame.empty
  { s1 with
    history := s.history.push { plane := f.plane, rect := f.rect, tag := f.tag, codes := oldCodes, marks := oldMarks }
    grid := grid
    classMap := putAt (List.replicate s.grid.zones none) ((s.grid.zoneIndexes f.rect).zip (classes.map some))
    report := some
      { tag := f.tag, plane := f.plane, rect := f.rect
        unmeasured := classes.count .unmeasured
        inBand := classes.count .inBand
        adjusted := classes.count .adjusted
        partialMoves := classes.count .partialMove
        saturated := classes.count .saturated
        largest := s.engine.largest
        minCode := leastCode (newCodes.headD 0) newCodes
        maxCode := greatestCode (newCodes.headD 0) newCodes
        generation := grid.generation }
    intake := { s.intake with outcomes := recordOutcome s.intake.outcomes solveEntry f.tag .done 0 }
    session := { s.session with publishSeen := true }
    engine := { state := .idle, results := [], largest := 0 } }

/-- The discard of the frame in a SOLVING buffer (R85, R86). -/
def State.discardFrame (s : State) (i : Bool) : State :=
  let s1 := s.setFrame i Frame.empty
  { s1 with
    intake := { s.intake with outcomes := recordOutcome s.intake.outcomes solveEntry (s.frame i).tag .discarded 0 }
    engine := { state := .idle, results := [], largest := 0 } }

/-- The grid may be changed: the grid lock and the panel read hold are both free (R78). -/
def State.gridFree (s : State) : Bool := s.grid.lock.isNone && !s.grid.hold

/-- A frame waiting in PUBLISH_WAIT publishes when the grid is free (R78), or is discarded if no new generation can be
taken (R86); the engine then takes a QUEUED frame at once (R68). -/
def State.publishWaiting (s : State) : State :=
  if s.engine.state = .publishWait ∧ s.gridFree = true then
    match s.frameIn .solving with
    | some i => if s.grid.exhausted then (s.discardFrame i).takeFrame else (s.publishFrame i).takeFrame
    | none => s
  else s

/-- The panel read hold is released where it is held, and a frame that waited for it publishes at that moment (R45, R78,
R88). -/
def State.releasePanel (s : State) : State :=
  if s.grid.hold then State.publishWaiting { s with grid := { s.grid with hold := false } } else s

/-- The grid lock is released, and a frame that waited for it publishes at that moment (R46, R78). -/
def State.unlock (s : State) : State := State.publishWaiting { s with grid := { s.grid with lock := none } }

/-- The end of computing (R77): the frame is discarded, or it enters PUBLISH_WAIT and publishes at once if it may. -/
def State.endComputing (s : State) : State :=
  if s.engine.state = .computing then
    match s.frameIn .solving with
    | some i =>
      if (s.frame i).discard || s.grid.exhausted then (s.discardFrame i).takeFrame
      else
        let r := solveFrame (s.frame i)
        State.publishWaiting { s with engine := { state := .publishWait, results := r.1, largest := r.2 } }
    | none => s
  else s

/-! ## The commands -/

/-- SOLVE_TAKE_FRAME (R63). A step of its own: R63 lets a status page read fall between a close and the taking. -/
def execSolveTakeFrame (s : State) : Host.Outcome State Fault Refusal := .next s.takeFrame.settle

/-- COMPUTING_END (R77). -/
def execComputingEnd (s : State) : Host.Outcome State Fault Refusal := .next s.endComputing.settle

/-- PUBLISH (R79): a frame in PUBLISH_WAIT publishes where the grid is free. The events that free the grid publish within
their own steps (R78), so this row acts on its own only in a state that no run reaches (log 13). -/
def execPublish (s : State) : Host.Outcome State Fault Refusal := .next s.publishWaiting.settle

end Sys2Proof.Machine
end

