-- ==== Sys2Proof/Machine/Present.lean ====
section
/-! DEFINITION. The Presentation Unit: presented codes, the overlay's bytes, the committed image's blocks, and the watch
monitors (08, R141). -/

namespace Sys2Proof.Machine

/-! ## The presented code (R102 to R104) -/

/-- A code shifted and rounded: floor(C / 2^s) plus bit s − 1 of C in 8-bit two's complement (R102). -/
def roundCode (shift : Nat) (c : Int) : Int :=
  if shift = 0 then c
  else c / (2 ^ shift : Nat) + (if (byteOfInt c).getLsbD (shift - 1) then 1 else 0)

/-- A rounded code clamped to the width in force (R103). -/
def clampCode (width : Nat) (p : Int) : Int :=
  let top : Int := (2 ^ (width - 1) : Nat)
  if top - 1 < p then top - 1 else if p < -top then -top else p

/-- The presented code of code index `k`: 0 where it is marked (R104), and 0 for a pad code (R106). -/
def Grid.presented (g : Grid) (k : Nat) : Int :=
  if g.marks.getD k false then 0 else clampCode g.width (roundCode g.shift (g.codes.getD k 0))

/-! ## The overlay (R101, R105 to R108) -/

/-- The number of codes, 3 times X times Y (R105). -/
def Grid.codeCount (g : Grid) : Nat := 3 * g.zones

/-- The presented length for a count of codes and a width (R107). -/
def presentedLengthOf (codes width : Nat) : Nat :=
  if width = 6 then 32 + 3 * ceilDiv codes 4 else 32 + codes

/-- The presented length of the grid (R107). -/
def Grid.presentedLength (g : Grid) : Nat := presentedLengthOf g.codeCount g.width

/-- The gray level of a plane, 0 while it is unset (R101). -/
def Grid.gray (g : Grid) (p : Plane) : Nat :=
  match g.planeRecord p with
  | some r => r.gray
  | none => 0

/-- The overlay header (R101, 03 §3.6). -/
def Grid.header (g : Grid) : List Byte :=
  [0x5A, 0xC3, 1, 3, BitVec.ofNat 8 g.cols, BitVec.ofNat 8 g.rows, BitVec.ofNat 8 g.width, BitVec.ofNat 8 g.shift]
    ++ le 4 g.generation ++ le 2 (g.gray .low) ++ le 2 (g.gray .mid) ++ le 2 (g.gray .high)
    ++ le 4 g.presentedLength ++ [flagByte (decide (0 < g.markCount))] ++ List.replicate 9 0

/-- The 6-bit two's complement value of a presented code (R106). -/
def sixBits (p : Int) : Nat := (BitVec.ofInt 6 p).toNat

/-- Byte `i` (0 to 2) of a width 6 group of four presented codes (R106). -/
def packedByte (c0 c1 c2 c3 : Nat) (i : Nat) : Byte :=
  match i with
  | 0 => BitVec.ofNat 8 (c0 + 64 * (c1 % 4))
  | 1 => BitVec.ofNat 8 (c1 / 4 + 16 * (c2 % 16))
  | _ => BitVec.ofNat 8 (c2 / 16 + 4 * c3)

/-- The grid byte at an offset behind the header (R105, R106). -/
def Grid.gridByte (g : Grid) (o : Nat) : Byte :=
  if g.width = 6 then
    let k := 4 * (o / 3)
    packedByte (sixBits (g.presented k)) (sixBits (g.presented (k + 1))) (sixBits (g.presented (k + 2)))
      (sixBits (g.presented (k + 3))) (o % 3)
  else byteOfInt (g.presented o)

/-- The overlay byte at a PANEL offset below the presented length (R108). -/
def Grid.overlayByte (g : Grid) (o : Nat) : Byte :=
  if o < 32 then g.header.getD o 0 else g.gridByte (o - 32)

/-- The overlay is active (R100). -/
def State.overlayActive (s : State) : Bool := decide (s.mode = .commissioning) && s.grid.geometry.isSome

/-! ## The committed image (R111, R140, R141) -/

/-- The check blocks of the committed image (R140). -/
def Grid.imageBlocks (g : Grid) : Nat := ceilDiv g.presentedLength 64

/-- The bytes of the committed image, filled with 0xFF to whole blocks (R140). -/
def Grid.image (g : Grid) : List Byte :=
  (List.range (64 * g.imageBlocks)).map (fun o => if o < g.presentedLength then g.overlayByte o else erasedByte)

/-- The PANEL offsets of the bytes that carry bits of code index `k` (R141). -/
def codeOffsets (width k : Nat) : List Nat :=
  if width = 6 then
    let b := 32 + 3 * (k / 4)
    match k % 4 with
    | 0 => [b]
    | 1 => [b, b + 1]
    | 2 => [b + 1, b + 2]
    | _ => [b + 2]
  else [32 + k]

/-- The check blocks that carry a bit of a marked zone-plane (R141). -/
def Grid.poisonedBlocks (g : Grid) : List Nat :=
  (((List.range g.codeCount).filter (fun k => g.marks.getD k false)).map
    (fun k => (codeOffsets g.width k).map (fun o => o / 64))).flatten

/-- Block `i` of the committed image is written poisoned (R141). -/
def Grid.poisonsBlock (g : Grid) (i : Nat) : Bool := g.poisonedBlocks.contains i

/-- The poisoned block count (R141). -/
def Grid.poisonedCount (g : Grid) : Nat := ((List.range g.imageBlocks).filter g.poisonsBlock).length

/-- The check table of the committed image (R140). -/
def Grid.checkTable (g : Grid) : List Byte :=
  let img := g.image
  let bad := g.poisonedBlocks
  ((List.range g.imageBlocks).map (fun i =>
    if bad.contains i then poisonedCheckOf (slice img (64 * i) 64) else checkOf (slice img (64 * i) 64))).flatten

/-! ## Watch monitors (R112 to R115) -/

/-- The kind of a watch from its code, 0 to 3 (R112). -/
def watchKindOf : Nat → Option WatchKind
  | 0 => some .off
  | 1 => some .read
  | 2 => some .write
  | 3 => some .both
  | _ => none

/-- A watch's kind covers a command (R113). -/
def WatchKind.covers (k : WatchKind) (c : LaneCommand) : Bool :=
  let isRead := decide (c = .read) || decide (c = .fastRead)
  let isWrite := decide (c = .pageProgram) || decide (c = .sectorErase) || decide (c = .blockErase)
  match k with
  | .off => false
  | .read => isRead
  | .write => isWrite
  | .both => isRead || isWrite

/-- A transaction matches a watch (R113). -/
def Watch.matchesTxn (w : Watch) (c : LaneCommand) (addr : Nat) : Bool :=
  w.kind.covers c && decide (BitVec.ofNat 24 addr &&& w.mask = w.base &&& w.mask)

/-- A watch after a transaction it may match has ended (R114). -/
def Watch.countTxn (w : Watch) (t : Txn) : Watch :=
  if w.matchesTxn t.command t.addr then
    { w with count := satSucc 65535 w.count,
             lastGen := match t.overlayGen with | some g => g | none => w.lastGen }
  else w

/-- Every watch counts a transaction that ends by U_CS deasserting (R114). -/
def State.countWatches (s : State) (t : Txn) : State := { s with watches := s.watches.map (fun w => w.countTxn t) }

end Sys2Proof.Machine
end

