-- ==== Sys2Proof/Machine/Pages.lean ====
section
/-! DEFINITION. The response pages of the Commissioning Aperture (R35 to R38, 03 §3.6). -/

namespace Sys2Proof.Machine

/-! ## Codes used on pages (03 §3.6) -/

/-- Mode codes. -/
def Mode.code : Mode → Nat
  | .bypass => 0
  | .normal => 1
  | .commissioning => 2

/-- Session state codes. -/
def SessionState.code : SessionState → Nat
  | .dormant => 0
  | .opened => 1
  | .lapsed => 2
  | .closed => 3

/-- Job kind codes; 0 is none. -/
def JobKind.code : JobKind → Nat
  | .commitGrid => 1
  | .park => 2
  | .keyStore => 3
  | .keyErase => 4
  | .regionSelect => 5
  | .closeOut => 6
  | .scan => 7
  | .scrub => 8

/-- Frame buffer codes. -/
def FrameState.code : FrameState → Nat
  | .free => 0
  | .filling => 1
  | .queued => 2
  | .solving => 3

/-- Solve Engine codes. -/
def EngineState.code : EngineState → Nat
  | .idle => 0
  | .computing => 1
  | .publishWait => 2

/-- Outcome codes. -/
def JobOutcome.code : JobOutcome → Nat
  | .none => 0
  | .done => 1
  | .donePoisoned => 2
  | .verifyFailed => 3
  | .profileInvalid => 4
  | .discarded => 5

/-- Key slot codes. -/
def KeyState.code : KeyState → Nat
  | .empty => 0
  | .pending => 1
  | .present => 2
  | .damaged => 3

/-- Staging buffer codes. -/
def StageState.code : StageState → Nat
  | .idle => 0
  | .filling => 1
  | .complete => 2
  | .held => 3

/-- Watch kind codes (R112). -/
def WatchKind.code : WatchKind → Nat
  | .off => 0
  | .read => 1
  | .write => 2
  | .both => 3

/-- Class map entries (R38). -/
def ZoneClass.code : ZoneClass → Nat
  | .unmeasured => 0
  | .inBand => 1
  | .adjusted => 2
  | .partialMove => 3
  | .saturated => 4

/-- Result codes (03 §3.6). -/
def Result.code : Result → Nat
  | .accepted => 0x00
  | .queued => 0x01
  | .truncated => 0x02
  | .framing => 0x80
  | .unknownKind => 0x81
  | .noSession => 0x82
  | .lapsed => 0x83
  | .closed => 0x84
  | .busy => 0x85
  | .queueFull => 0x86
  | .range => 0x87
  | .notReady => 0x88
  | .noFrame => 0x89
  | .frameHeld => 0x8A
  | .historyEmpty => 0x8B
  | .classTaken => 0x8C
  | .slotLocked => 0x8D
  | .stageState => 0x8E
  | .precondition => 0x8F
  | .gridStarted => 0x90
  | .queueEmpty => 0x91

/-- A number as one byte. -/
def byteOf (n : Nat) : Byte := BitVec.ofNat 8 n

/-! ## Page 0 (R36) -/

/-- The elapsed seconds since the opening stamp (R25). -/
def Session.elapsed (n : Session) : Nat :=
  if n.timeValid then
    min 4294967295
      (((((n.day : Int) - (n.openDay : Int)) % 65536) * 86400 + (n.seconds : Int) - (n.openSeconds : Int)).toNat)
  else 0

/-- The status page. R36 and 03 §3.6 name bit 0 of byte 7 and bits 0 to 6 of byte 28, and R35 gives 0x00 for whole undefined
bytes only; that the other bits of these two bytes read 0 is the model's choice (DESIGN CHOICE, unsafe, log 46). -/
def State.statusPage (s : State) : List Byte :=
  let uni := s.uniGen?.getD 0
  let park := s.parkGen?.getD 0
  let ring := match s.latest with | some l => l.record.ringGen | none => 0
  [byteOf s.mode.code, byteOf s.session.state.code, s.intake.lastTag, byteOf s.intake.lastResult.code]
    ++ le 2 s.intake.recordCount
    ++ [byteOf (match s.seq.active with | some a => a.job.kind.code | none => 0), flagByte s.jobPaused,
        byteOf s.seq.waiting.length, byteOf s.frame0.state.code, byteOf s.frame1.state.code, byteOf s.engine.state.code]
    ++ le 4 s.grid.generation ++ le 4 uni ++ le 4 park ++ le 4 ring
    ++ [bitsByte [s.clean, s.unsaved, s.grid.geometry.isSome, s.grid.lock.isSome, s.session.timeValid, s.closedFlag,
                   s.session.publishSeen],
        byteOf s.history.stack.length]
    ++ le 2 s.history.truncated
    ++ [byteOf s.conds.records.length, byteOf s.intake.closeOutIndex]
    ++ le 2 s.session.day ++ le 4 s.session.seconds ++ le 4 s.session.elapsed
    ++ (match s.region.selected with | some r => [byteOf r.slot, byteOf r.id] | none => [0xFF, 0])
    ++ [byteOf s.session.station]

/-! ## Pages 1 to 7 (R37) -/

/-- Page 1: the operation outcome table. -/
def State.outcomePage (s : State) : List Byte :=
  (s.intake.outcomes.map (fun e => [e.tag, byteOf e.outcome.code, byteOf e.count, 0] ++ le 4 e.ringGen)).flatten

/-- Page 2: the solve report. That its valid mark reads 1 while set is the model's choice (log 46). -/
def State.reportPage (s : State) : List Byte :=
  match s.report with
  | none => []
  | some r =>
    [r.tag, byteOf r.plane.index, byteOf r.rect.x0, byteOf r.rect.y0, byteOf r.rect.w, byteOf r.rect.h]
      ++ le 2 r.unmeasured ++ le 2 r.inBand ++ le 2 r.adjusted ++ le 2 r.partialMoves ++ le 2 r.saturated
      ++ le 4 r.largest ++ [byteOfInt r.minCode, byteOfInt r.maxCode] ++ le 4 r.generation ++ [1]

/-- Page 3: the head condition record and the queue depth. 03 §3.6 names bits 0 to 3 of byte 5 and bits 0 to 2 of byte 6; that
their other bits read 0, and that the present mark and the time-valid byte read 1 while set, is the model's choice
(DESIGN CHOICE, unsafe, log 46). -/
def State.conditionPage (s : State) : List Byte :=
  match s.conds.records with
  | [] => [0, 0]
  | c :: _ =>
    [byteOf s.conds.records.length, 1] ++ le 2 c.seq
      ++ [byteOf c.cls.code, bitsByte [c.indirect, c.ancillary, c.overflow, c.parkNotQueued],
          bitsByte [c.address.isSome, c.slot.isSome, c.command.isSome]]
      ++ le 3 (c.address.getD 0) ++ [byteOf (c.slot.getD 0), c.command.getD 0, byteOf c.repeats, flagByte c.timeValid]
      ++ le 2 c.day ++ le 4 c.seconds ++ [byteOf c.mode.code]

/-- Page 4: the history, top entry first (R99). -/
def State.historyPage (s : State) : List Byte :=
  [byteOf s.history.stack.length] ++ List.replicate 7 0
    ++ (s.history.stack.map (fun e =>
        [byteOf e.plane.index, byteOf e.rect.x0, byteOf e.rect.y0, byteOf e.rect.w, byteOf e.rect.h, e.tag]
          ++ le 2 e.payload)).flatten

/-- Page 5: the Key Slot Table and the staging buffer's state, never a payload. -/
def State.keyPage (s : State) : List Byte :=
  padTo 192 0 (s.keys.map (fun k =>
      [byteOf k.state.code, byteOf k.cls] ++ le 2 k.length ++ [byteOf k.station, 0] ++ le 2 k.day ++ le 4 k.seconds)).flatten
    ++ [byteOf s.staging.state.code, byteOf s.staging.slot, byteOf s.staging.cls, 0]
    ++ le 2 s.staging.total ++ le 2 s.staging.filled

/-- Page 6: the window counters and the watch monitors. -/
def State.counterPage (s : State) : List Byte :=
  padTo 64 0 (s.counters.map (fun c => le 2 c.reads ++ le 2 c.writes ++ le 2 c.withheld)).flatten
    ++ (s.watches.map (fun w =>
        [byteOf w.kind.code, 0] ++ le 3 w.base.toNat ++ le 3 w.mask.toNat ++ le 2 w.count ++ le 4 w.lastGen ++ [0, 0])).flatten

/-- Page 7: the region page (R37, R169). That its valid byte reads 1 while a region is selected is the model's choice (log 46). -/
def State.regionPage (s : State) : List Byte :=
  (match s.region.selected with
    | some r => [1, byteOf r.slot, byteOf r.id] ++ le 2 r.scale
    | none => [0, 0xFF, 0] ++ le 2 256)
    ++ (match s.region.classes with
        | some cs => byteOf cs.length :: padTo 8 0 (cs.map byteOf)
        | none => 0xFF :: List.replicate 8 0)
    ++ [byteOf s.region.reason]

/-! ## Class map pages (R38) -/

/-- The 4-bit entry of a zone index; 0 beyond the geometry. R38 says so of whole bytes; that the unused high half of the last
entry's byte reads 0 too is the model's choice (log 40). -/
def State.mapEntry (s : State) (i : Nat) : Nat :=
  match s.classMap[i]? with
  | some (some c) => c.code
  | some none => 15
  | none => 0

/-- A class map page, 16 to 33. -/
def State.mapPage (s : State) (n : Nat) : List Byte :=
  (List.range 256).map (fun o =>
    byteOf (s.mapEntry (512 * (n - 16) + 2 * o) + 16 * s.mapEntry (512 * (n - 16) + 2 * o + 1)))

/-! ## A page -/

/-- The 256 bytes of an aperture page (R35): zero where its layout defines nothing, and for a page not in the map. -/
def State.responsePage (s : State) (n : Nat) : List Byte :=
  padTo 256 0
    (match n with
      | 0 => s.statusPage
      | 1 => s.outcomePage
      | 2 => s.reportPage
      | 3 => s.conditionPage
      | 4 => s.historyPage
      | 5 => s.keyPage
      | 6 => s.counterPage
      | 7 => s.regionPage
      | _ => if 16 ≤ n ∧ n ≤ 33 then s.mapPage n else [])

end Sys2Proof.Machine
end

