-- ==== Sys2Proof/Machine/Operands.lean ====
section
/-! DEFINITION. The operand forms of the records: the kinds and their codes, the framing of a program's bytes, and the
fields of each kind's body (R28, R30, R32, 03 §3.6). -/

namespace Sys2Proof.Machine

/-- The record kinds (03 §3.6). -/
inductive Kind where
  | sessionOpen | resetSession | mask | retire | geometry | format | plane | frameOpen | zones | frameClose
  | frameAbandon | rollback | watch | commit | park | scan | keyStage | keyMore | keyStore | keyErase | keyUnstage
  | region | closeOut
deriving DecidableEq, Repr

/-- Every kind. -/
def Kind.all : List Kind :=
  [.sessionOpen, .resetSession, .mask, .retire, .geometry, .format, .plane, .frameOpen, .zones, .frameClose,
   .frameAbandon, .rollback, .watch, .commit, .park, .scan, .keyStage, .keyMore, .keyStore, .keyErase, .keyUnstage,
   .region, .closeOut]

/-- The code of a kind. -/
def Kind.code : Kind → Nat
  | .sessionOpen => 0x01
  | .resetSession => 0x02
  | .mask => 0x03
  | .retire => 0x04
  | .geometry => 0x10
  | .format => 0x11
  | .plane => 0x12
  | .frameOpen => 0x20
  | .zones => 0x21
  | .frameClose => 0x22
  | .frameAbandon => 0x23
  | .rollback => 0x28
  | .watch => 0x2C
  | .commit => 0x30
  | .park => 0x31
  | .scan => 0x32
  | .keyStage => 0x40
  | .keyMore => 0x41
  | .keyStore => 0x42
  | .keyErase => 0x43
  | .keyUnstage => 0x44
  | .region => 0x50
  | .closeOut => 0x5F

/-- The kind a kind byte names, if it is known (R31). -/
def kindOf (b : Byte) : Option Kind := Kind.all.find? (fun k => k.code == b.toNat)

/-- The shortest body of a kind: its fields, and for the varying kinds one data unit more (R32). -/
def Kind.bodyLength : Kind → Nat
  | .sessionOpen => 11
  | .mask => 2
  | .geometry => 2
  | .format => 2
  | .plane => 13
  | .frameOpen => 6
  | .zones => 8
  | .frameClose => 1
  | .frameAbandon => 1
  | .watch => 8
  | .keyStage => 5
  | .keyMore => 1
  | .keyErase => 1
  | .region => 1
  | _ => 0

/-- The bytes a page program leaves at the offsets from its start on, of more than 256 the later ones (R28). -/
def programmedBytes (data : List Byte) : List Byte :=
  if data.length ≤ 256 then data
  else
    let turn := (256 - (data.length - 256) % 256) % 256
    (lastPage data).drop turn ++ (lastPage data).take turn

/-- A record as its framing gives it (R30). -/
structure Framed where
  kind : Byte
  tag : Byte
  body : List Byte
deriving DecidableEq, Repr

/-- The byte a program that started at a page offset has left at page offset 1, if it addressed that offset (R28). -/
def collectedTag (offset : Nat) (data : List Byte) : Option Byte := (programmedBytes data)[(257 - offset % 256) % 256]?

/-- The framing of a program that started at a page offset: the record, or the tag of a FRAMING refusal (R30). The tag is
byte 1 of the page the Intake collects, 0 with fewer than two bytes programmed, and `none` where two or more were
programmed and none of them reached that byte: the spec gives it no value there (log 23). -/
def frameRecord (offset : Nat) (data : List Byte) : Framed ⊕ Option Byte :=
  let b := programmedBytes data
  if b.length < 4 ∨ offset ≠ 0 ∨ b.length - 4 < fieldAt b 2 2 then
    .inr (if data.length < 2 then some 0 else collectedTag offset data)
  else .inl { kind := b.getD 0 0, tag := b.getD 1 0, body := slice b 4 (fieldAt b 2 2) }

/-! ## Bodies -/

/-- The fields of a SESSION_OPEN body. -/
structure SessionOpenBody where
  station : Nat
  day : Nat
  hours : Nat
  minutes : Nat
  seconds : Nat
  tens : Nat
  ones : Nat
  prescale : Nat
  rate : Nat
  duration : Nat
deriving DecidableEq, Repr

/-- A SESSION_OPEN body read. -/
def sessionOpenBody (b : List Byte) : SessionOpenBody :=
  { station := byteAt b 0, day := fieldAt b 1 2, hours := byteAt b 3, minutes := byteAt b 4, seconds := byteAt b 5,
    tens := byteAt b 6, ones := byteAt b 7, prescale := byteAt b 8, rate := byteAt b 9, duration := byteAt b 10 }

/-- Every field of a SESSION_OPEN lies in its range (R20). -/
def SessionOpenBody.legal (b : SessionOpenBody) : Bool :=
  decide (1 ≤ b.station) && decide (b.hours ≤ 23) && decide (b.minutes ≤ 59) && decide (b.seconds ≤ 59)
    && decide (b.tens ≤ 7) && decide (b.ones ≤ 9) && decide (b.prescale ≤ 1) && decide (b.rate ≤ 3)
    && decide (b.duration ≤ 3)

/-- The seven fields of a plane record lie in their ranges; the rounding as its code (R48). -/
def planeFields (gray target slope tolLo tolHi limit rounding : Nat) : Option PlaneRecord :=
  if gray ≤ 1023 ∧ 1 ≤ target ∧ target ≤ 65534 ∧ 1 ≤ slope ∧ slope ≤ 2047 ∧ tolLo ≤ 4095 ∧ tolHi ≤ 4095
      ∧ 1 ≤ limit ∧ limit ≤ 127 ∧ rounding ≤ 1 then
    some { gray := gray, target := target, slope := slope, tolLo := tolLo, tolHi := tolHi, limit := limit,
           rounding := if rounding = 0 then .nearest else .towardZero }
  else none

/-- The seven fields of a plane record in a run of bytes (PLANE body, park image plane block). -/
def planeFieldsAt (b : List Byte) (off : Nat) : Option PlaneRecord :=
  planeFields (fieldAt b off 2) (fieldAt b (off + 2) 2) (fieldAt b (off + 4) 2) (fieldAt b (off + 6) 2)
    (fieldAt b (off + 8) 2) (byteAt b (off + 10)) (byteAt b (off + 11))

/-- The rectangle of a FRAME_OPEN body. -/
def frameOpenRect (b : List Byte) : Rect :=
  { x0 := byteAt b 2, y0 := byteAt b 3, w := byteAt b 4, h := byteAt b 5 }

/-- The `count` values of a ZONES body (R57). -/
def zonesValues (b : List Byte) (count : Nat) : List Nat :=
  (List.range count).map (fun j => fieldAt b (6 + 2 * j) 2)

/-- A 24-bit field of a body. -/
def addressAt (b : List Byte) (off : Nat) : Address := BitVec.ofNat 24 (fieldAt b off 3)

end Sys2Proof.Machine
end

