-- ==== Sys2Proof/Machine/Session.lean ====
section
/-! DEFINITION. The Session Controller: SESSION_OPEN and RESET_SESSION as their owner judges them, the line clock and the
lamp's timer (02). The lapse stands in Jobs.lean, since it starts a job. -/

namespace Sys2Proof.Machine

/-- A job queued at the tail of the waiting jobs (R122). -/
def State.queueJob (s : State) (j : Job) : State :=
  { s with seq := { s.seq with waiting := s.seq.waiting ++ [j] } }

/-- A job that needs no slot or sector. -/
def plainJob (k : JobKind) (tag : Byte) : Job := { kind := k, tag := tag, slot := 0, sector := 0 }

/-- SESSION_OPEN at its owner (R20). -/
def judgeSessionOpen (body : List Byte) (s : State) : State × Result :=
  let b := sessionOpenBody body
  if b.legal then
    let secs := b.hours * 3600 + b.minutes * 60 + b.seconds
    ({ s with session :=
        { state := .opened, station := b.station, timeoutTens := b.tens, timeoutOnes := b.ones, prescale := b.prescale,
          timer := s.session.timer, lampRate := b.rate, lampDuration := b.duration, day := b.day, seconds := secs,
          timeValid := true, openDay := b.day, openSeconds := secs,
          publishSeen := s.session.publishSeen && decide (s.session.state ≠ .dormant) } }, .accepted)
  else (s, .range)

/-- A frame buffer at an accepted RESET_SESSION (R66). -/
def Frame.resetSession (f : Frame) : Frame :=
  match f.state with
  | .free => f
  | .filling => Frame.empty
  | .queued => Frame.empty
  | .solving => { f with discard := true }

/-- The staging buffer at an accepted RESET_SESSION (R27, R157). -/
def Staging.resetSession (g : Staging) : Staging :=
  match g.state with
  | .idle => g
  | .filling => Staging.idle
  | .complete => Staging.idle
  | .held => g

/-- A frame in PUBLISH_WAIT that has the discard mark is discarded at once (R68, R85). -/
def State.discardWaiting (s : State) : State :=
  if s.engine.state = .publishWait then
    match s.frameIn .solving with
    | some i => if (s.frame i).discard then s.discardFrame i else s
    | none => s
  else s

/-- RESET_SESSION at its owner (R27). -/
def judgeResetSession (s : State) : State × Result :=
  (State.discardWaiting
    { s with
      frame0 := s.frame0.resetSession
      frame1 := s.frame1.resetSession
      history := s.history.clear
      staging := s.staging.resetSession
      watches := List.replicate 4 Watch.off
      counters := List.replicate 10 CounterSet.zero }, .accepted)

/-- The line clock advanced by one second (R24). -/
def Session.tick (n : Session) : Session :=
  if n.seconds + 1 < 86400 then { n with seconds := n.seconds + 1 }
  else { n with seconds := 0, day := (n.day + 1) % 65536 }

/-! ## The commands -/

/-- LINE_CLOCK_TICK (R24). -/
def execLineClockTick (s : State) : Host.Outcome State Fault Refusal := .next { s with session := s.session.tick }.settle

/-- LAMP_FLASH_TIMER (R26): a flashing lamp goes dark when its duration expires and is lit again at the next period. -/
def Lamp.flashTimer (l : Lamp) : Lamp :=
  match l.pattern with
  | .flash _ _ => { l with lit := !l.lit }
  | .released => l
  | .off => l
  | .steady => l

/-- LAMP_FLASH_TIMER (R26). -/
def execLampFlashTimer (s : State) : Host.Outcome State Fault Refusal := .next { s with lamp := s.lamp.flashTimer }.settle

end Sys2Proof.Machine
end

