-- ==== Sys2Proof/Machine/GridRecords.lean ====
section
/-! DEFINITION. The records of the Zone Grid, the Correction History and the Presentation Unit as their owners judge
them: GEOMETRY, FORMAT, PLANE, COMMIT, PARK, ROLLBACK, WATCH (04, 07, 08). The check of R175 comes first, after the
body's length (log 15). -/

namespace Sys2Proof.Machine

/-- An accepted GEOMETRY (R40). -/
def State.applyGeometry (s : State) (x y : Nat) : State :=
  { s with
    grid := ({ s.grid with geometry := some { cols := x, rows := y }, codes := List.replicate (3 * (x * y)) 0,
                           marks := List.replicate (3 * (x * y)) false }).newGeneration
    history := s.history.clear
    report := none
    classMap := List.replicate (x * y) none }

/-- GEOMETRY at its owner (R40). -/
def judgeGeometry (body : List Byte) (s : State) : State × Result :=
  let x := byteAt body 0
  let y := byteAt body 1
  if s.closingOut then (s, .busy)
  else if x < 1 ∨ 128 < x ∨ y < 1 ∨ 72 < y then (s, .range)
  else if s.grid.exhausted then (s, .range)
  else if !s.framesFree then (s, .busy)
  else if s.grid.lock.isSome then (s, .busy)
  else (s.applyGeometry x y, .accepted)

/-- FORMAT at its owner (R50). -/
def judgeFormat (body : List Byte) (s : State) : State × Result :=
  let w := byteAt body 0
  let sh := byteAt body 1
  if s.closingOut then (s, .busy)
  else if w ≠ 8 ∧ w ≠ 6 then (s, .range)
  else if s.grid.exhausted then (s, .range)
  else if s.grid.lock.isSome then (s, .busy)
  else
    ({ s with grid := ({ s.grid with width := w, shift := min sh 3 }).newGeneration },
      if 3 < sh then .truncated else .accepted)

/-- PLANE at its owner (R48). -/
def judgePlane (body : List Byte) (s : State) : State × Result :=
  match planeOf (byteAt body 0), planeFieldsAt body 1 with
  | some p, some r => ({ s with grid := s.grid.setPlane p r }, .accepted)
  | _, _ => (s, .range)

/-- COMMIT and PARK at their owner (R51). -/
def judgeGridJob (kind : JobKind) (tag : Byte) (s : State) : State × Result :=
  if s.closingOut then (s, .busy)
  else if s.grid.geometry.isNone then (s, .notReady)
  else if s.queueFull then (s, .queueFull)
  else (s.queueJob (plainJob kind tag), .queued)

/-- SCAN at its owner (R123). -/
def judgeScan (tag : Byte) (s : State) : State × Result :=
  if s.closingOut then (s, .busy)
  else if s.queueFull then (s, .queueFull)
  else (s.queueJob (plainJob .scan tag), .queued)

/-- ROLLBACK at its owner (R92). -/
def judgeRollback (s : State) : State × Result :=
  if s.closingOut then (s, .busy)
  else if s.history.stack.isEmpty then (s, .historyEmpty)
  else if s.grid.lock.isSome then (s, .busy)
  else if s.grid.exhausted then (s, .range)
  else (s.popHistory, .accepted)

/-- WATCH at its owner (R112). -/
def judgeWatch (body : List Byte) (s : State) : State × Result :=
  match watchKindOf (byteAt body 1) with
  | some k =>
    if byteAt body 0 ≤ 3 then
      let w : Watch := { kind := k, base := addressAt body 2, mask := addressAt body 5, count := 0, lastGen := 0 }
      ({ s with watches := s.watches.set (byteAt body 0) w }, .accepted)
    else (s, .range)
  | none => (s, .range)

end Sys2Proof.Machine
end

