-- ==== Sys2Proof/Machine/Frames.lean ====
section
/-! DEFINITION. The records of the Frame Buffers as their owner judges them: FRAME_OPEN, ZONES, FRAME_CLOSE,
FRAME_ABANDON (05). -/

namespace Sys2Proof.Machine

/-- The FILLING buffer, if its frame carries a tag (R57, R60, R62). -/
def State.fillingWith (s : State) (tag : Byte) : Option Bool :=
  match s.frameIn .filling with
  | some i => if (s.frame i).tag = tag then some i else none
  | none => none

/-- A rectangle lies inside the grid and is not empty (R55). -/
def Grid.holdsRect (g : Grid) (r : Rect) : Bool :=
  decide (r.w ≠ 0) && decide (r.h ≠ 0) && decide (r.x0 + r.w ≤ g.cols) && decide (r.y0 + r.h ≤ g.rows)

/-- FRAME_OPEN at its owner (R55, R56). -/
def judgeFrameOpen (body : List Byte) (s : State) : State × Result :=
  if s.closingOut then (s, .busy)
  else match planeOf (byteAt body 1) with
    | none => (s, .range)
    | some p =>
      if s.grid.geometry.isNone then (s, .notReady)
      else if (s.grid.planeRecord p).isNone then (s, .notReady)
      else if !s.grid.holdsRect (frameOpenRect body) then (s, .range)
      else if s.anyFrame .filling then (s, .frameHeld)
      else match s.frameIn .free with
        | none => (s, .queueFull)
        | some i =>
          (s.setFrame i
            { state := .filling, tag := body.getD 0 0, plane := p, rect := frameOpenRect body,
              slots := List.replicate (byteAt body 4 * byteAt body 5) none, snapshot := none, discard := false },
            .accepted)

/-- Slots with consecutive values written from a slot on; values beyond the last slot are lost (R58). -/
def writeSlots (slots : List (Option Nat)) (off : Nat) : List Nat → List (Option Nat)
  | [] => slots
  | v :: t => writeSlots (slots.set off (some v)) (off + 1) t

/-- ZONES at its owner (R57, R58). -/
def judgeZones (body : List Byte) (s : State) : State × Result :=
  match s.fillingWith (body.getD 0 0) with
  | none => (s, .noFrame)
  | some i =>
    let f := s.frame i
    let off := fieldAt body 2 2
    let count := fieldAt body 4 2
    if count = 0 ∨ 120 < count then (s, .range)
    else if body.length < 6 + 2 * count then (s, .range)
    else if f.rect.w * f.rect.h ≤ off then (s, .range)
    else
      (s.setFrame i { f with slots := writeSlots f.slots off (zonesValues body count) },
        if f.rect.w * f.rect.h < off + count then .truncated else .accepted)

/-- The effective target (R61). -/
def effectiveTarget (target scale : Nat) : Nat := (target * scale + 128) / 256

/-- The snapshot FRAME_CLOSE takes of a plane record (R60). -/
def PlaneRecord.snapshot (r : PlaneRecord) (scale : Nat) : Snapshot :=
  { tEff := effectiveTarget r.target scale, slope := r.slope, tolLo := r.tolLo, tolHi := r.tolHi, limit := r.limit,
    rounding := r.rounding }

/-- FRAME_CLOSE at its owner (R60). An IDLE engine that has not yet taken the frame closed before takes it now, so that at
most one buffer is QUEUED and frames are solved in the order they were closed (R63). -/
def judgeFrameClose (body : List Byte) (s : State) : State × Result :=
  match s.fillingWith (body.getD 0 0) with
  | none => (s, .noFrame)
  | some i =>
    let f := s.frame i
    (s.takeFrame.setFrame i { f with state := .queued, snapshot := (s.grid.planeRecord f.plane).map (fun r => r.snapshot s.scale) },
      .accepted)

/-- FRAME_ABANDON at its owner (R62). -/
def judgeFrameAbandon (body : List Byte) (s : State) : State × Result :=
  match s.fillingWith (body.getD 0 0) with
  | none => (s, .noFrame)
  | some i => (s.setFrame i Frame.empty, .accepted)

end Sys2Proof.Machine
end

