-- ==== Sys2Proof/Machine/Keys.lean ====
section
/-! DEFINITION. The Key Slot Table: the law of classes, the table's entries from headers and decodes, and the key records
as their owner judges them (11). -/

namespace Sys2Proof.Machine

/-- The entry of a key slot; an EMPTY one beyond the table. -/
def State.keyEntry (s : State) (slot : Nat) : KeyEntry := s.keys.getD slot KeyEntry.empty

/-- An entry of the table replaced. -/
def State.setKey (s : State) (slot : Nat) (e : KeyEntry) : State := { s with keys := s.keys.set slot e }

/-- An entry holds its class under the law of R154: it is PRESENT or PENDING. -/
def KeyEntry.holds (e : KeyEntry) (cls : Nat) : Bool :=
  (decide (e.state = .present) || decide (e.state = .pending)) && decide (e.cls = cls)

/-- A slot other than one named is PRESENT or PENDING with a class (R158, R161). -/
def State.classTaken (s : State) (slot cls : Nat) : Bool :=
  s.keys.zipIdx.any (fun p => decide (p.2 ≠ slot) && p.1.holds cls)

/-- The report of a slot that enters DAMAGED (R154). -/
def keyDamage (slot : Nat) : Report := { cls := .keyDamage, slot := some slot }

/-- A slot made DAMAGED, with its KEY_DAMAGE report (R154). -/
def State.damageKey (s : State) (slot : Nat) (e : KeyEntry) : State :=
  (s.setKey slot { e with state := .damaged }).raise (keyDamage slot)

/-- The entry the start-up load sets from a slot's block 0 (R155). -/
def State.loadKey (s : State) (slot : Nat) (block : List Byte) : State :=
  let d := decodeEmbedded block
  if d = .blank then s.setKey slot KeyEntry.empty
  else match keyHeader slot d (embeddedData block) with
    | none => s.damageKey slot KeyEntry.empty
    | some e => if s.classTaken slot e.cls then s.damageKey slot e else s.setKey slot e

/-- The entry SCAN sets from a slot's eight blocks, decodes and data (R156). -/
def State.judgeKey (s : State) (slot : Nat) (blocks : List (List Byte)) : State :=
  let ds := blocks.map decodeEmbedded
  let b0 := blocks.getD 0 []
  if (s.keyEntry slot).state = .pending then s
  else if ds.all (fun d => decide (d = .blank)) then s.setKey slot KeyEntry.empty
  else match (if ds.all Decode.trusted then keyHeader slot (decodeEmbedded b0) (embeddedData b0) else none) with
    | none => s.damageKey slot KeyEntry.empty
    | some e => if s.classTaken slot e.cls then s.damageKey slot e else s.setKey slot e

/-- The key class set at an append, one bit a class; the appending job's own slot is left out (R163). -/
def State.heldClasses (s : State) (slot : Nat) : List Nat :=
  (s.keys.zipIdx.filter (fun p => decide (p.2 ≠ slot) &&
    (decide (p.1.state = .present) ||
      (decide (p.1.state = .pending) && p.1.erasing && decide (p.1.prior = .present))))).map (fun p => p.1.cls)

/-- A class set as a 16-bit number: bit c for class c, 1..15. -/
def classBits (cs : List Nat) : Nat :=
  (((List.range 16).filter (fun c => decide (1 ≤ c) && cs.contains c)).map (fun c => 2 ^ c)).sum

/-! ## The records -/

/-- A chunk put behind the bytes a staging buffer holds, cut at its total length (R158, R159). -/
def Staging.append (g : Staging) (chunk : List Byte) : Staging :=
  let kept := chunk.take (g.total - g.filled)
  let n := g.filled + kept.length
  { g with payload := overwrite g.payload g.filled kept, filled := n,
           state := if n < g.total then .filling else .complete }

/-- KEY_STAGE at its owner (R158). -/
def judgeKeyStage (body : List Byte) (s : State) : State × Result :=
  let slot := byteAt body 0
  let cls := byteAt body 1
  let total := fieldAt body 2 2
  let chunk := body.drop 4
  if s.staging.state ≠ .idle then (s, .stageState)
  else if 15 < slot ∨ cls < 1 ∨ 15 < cls ∨ total < 16 ∨ 448 < total ∨ 240 < chunk.length then (s, .range)
  else if s.classTaken slot cls then (s, .classTaken)
  else
    ({ s with staging := ({ Staging.idle with slot := slot, cls := cls, total := total }).append chunk },
      if total < chunk.length then .truncated else .accepted)

/-- KEY_MORE at its owner (R159). -/
def judgeKeyMore (body : List Byte) (s : State) : State × Result :=
  if s.staging.state ≠ .filling then (s, .stageState)
  else
    ({ s with staging := s.staging.append body },
      if s.staging.total < s.staging.filled + body.length then .truncated else .accepted)

/-- KEY_UNSTAGE at its owner (R160). -/
def judgeKeyUnstage (s : State) : State × Result :=
  if s.staging.state = .held then (s, .stageState) else ({ s with staging := Staging.idle }, .accepted)

/-- The entry a slot has while its store or erase job waits or runs (R154, R161, R164). -/
def KeyEntry.pend (e : KeyEntry) (cls : Nat) (erasing : Bool) : KeyEntry :=
  { e with state := .pending, cls := cls, prior := e.state, erasing := erasing }

/-- KEY_STORE at its owner (R161). -/
def judgeKeyStore (tag : Byte) (s : State) : State × Result :=
  let slot := s.staging.slot
  let e := s.keyEntry slot
  if s.closingOut then (s, .busy)
  else if s.staging.state ≠ .complete then (s, .stageState)
  else if s.closedFlag ∧ e.state ≠ .empty then (s, .slotLocked)
  else if e.state = .pending then (s, .busy)
  else if s.classTaken slot s.staging.cls then (s, .classTaken)
  else if s.queueFull then (s, .queueFull)
  else
    (State.queueJob { s.setKey slot (e.pend s.staging.cls false) with staging := { s.staging with state := .held } }
      { kind := .keyStore, tag := tag, slot := slot, sector := 0 }, .queued)

/-- KEY_ERASE at its owner (R164). -/
def judgeKeyErase (tag : Byte) (body : List Byte) (s : State) : State × Result :=
  let slot := byteAt body 0
  let e := s.keyEntry slot
  if s.closingOut then (s, .busy)
  else if 15 < slot then (s, .range)
  else if s.closedFlag then (s, .slotLocked)
  else if e.state = .empty then (s, .range)
  else if e.state = .pending then (s, .busy)
  else if s.queueFull then (s, .queueFull)
  else
    (State.queueJob (s.setKey slot (e.pend (if e.state = .present then e.cls else 0) true))
      { kind := .keyErase, tag := tag, slot := slot, sector := 0 }, .queued)

end Sys2Proof.Machine
end

