-- ==== Sys2Proof/Machine/Region.lean ====
section
/-! DEFINITION. The Region Selector: the region in force, the profile directory, and REGION and CLOSE_OUT as their owner
judges them (12). -/

namespace Sys2Proof.Machine

/-- REGION at its owner (R171). -/
def judgeRegion (tag : Byte) (body : List Byte) (s : State) : State × Result :=
  let slot := byteAt body 0
  if s.closingOut then (s, .busy)
  else if 7 < slot then (s, .range)
  else if s.closedFlag then (s, .closed)
  else if (match s.region.directory.getD slot none with
           | some h => s.session.publishSeen && decide (h.scale ≠ s.scale)
           | none => false) = true then (s, .gridStarted)
  else if s.queueFull then (s, .queueFull)
  else (s.queueJob { kind := .regionSelect, tag := tag, slot := slot, sector := 0 }, .queued)

/-- A class is held by a slot that is PRESENT (R174). -/
def State.classPresent (s : State) (cls : Nat) : Bool :=
  s.keys.any (fun e => decide (e.state = .present) && decide (e.cls = cls))

/-- The seven preconditions of close-out, in order (R174). -/
def State.preconditions (s : State) : List Bool :=
  [!s.jobInProgress && s.seq.waiting.isEmpty,
   s.framesFree,
   s.region.selected.isSome,
   (match s.region.classes with
    | some cs => cs.all s.classPresent
    | none => false),
   s.keys.all (fun e => decide (e.state ≠ .damaged) && decide (e.state ≠ .pending)),
   s.clean && (match s.latest with
    | some l => decide (l.record.poisoned = 0)
    | none => false),
   decide (s.grid.markCount = 0)]

/-- The number of the first precondition that fails, 1 to 7 (R174). -/
def State.failedPrecondition (s : State) : Option Nat :=
  (s.preconditions.findIdx? (fun b => !b)).map (fun i => i + 1)

/-- CLOSE_OUT at its owner (R174, R175). -/
def judgeCloseOut (tag : Byte) (s : State) : State × Result :=
  if s.closingOut then (s, .busy)
  else match s.failedPrecondition with
    | some n => ({ s with intake := { s.intake with closeOutIndex := n } }, .precondition)
    | none =>
      (State.queueJob { s with intake := { s.intake with closeOutIndex := 0 } } (plainJob .closeOut tag), .queued)

/-- The directory entry of a slot set (R170). -/
def State.setDirectory (s : State) (slot : Nat) (h : Option ProfileHeader) : State :=
  { s with region := { s.region with directory := s.region.directory.set slot h } }

/-- The profile slot whose first sector holds an address of the PROFILES window. -/
def Layout.profileSlot (l : Layout) (a : Nat) : Nat := (a - l.profiles) / 65536

/-- An address lies in the first sector of some profile slot (R170). -/
def Layout.inHeaderSector (l : Layout) (a : Nat) : Bool :=
  l.inWindow .profiles a && decide ((a - l.profiles) % 65536 < 4096)

/-- A forwarded program or erase that reaches an address has ended, or was dropped after its address was complete: the
directory entry of a first sector it reaches becomes unknown (R170). -/
def State.forgetProfile (s : State) (a : Nat) : State :=
  match s.layout with
  | some l => if l.inHeaderSector a then s.setDirectory (l.profileSlot a) none else s
  | none => s

end Sys2Proof.Machine
end

