-- ==== Sys2Proof/Machine/Plans.lean ====
section
/-! DEFINITION. What each job writes and in which steps: the plans of COMMIT_GRID, PARK and SCAN, the steps of one
sector's writing and verify, and the sector-buffer rewrite (09 §9.6 to 9.9, 10, 11). -/

namespace Sys2Proof.Machine

/-! ## One sector (R124, R126) -/

/-- The program steps of a run of bytes, page by page, the last page in part (R124, R140). -/
def pageSteps (addr : Nat) (bytes : List Byte) : List Step :=
  (List.range (ceilDiv bytes.length 256)).map (fun i => .program (addr + 256 * i) (slice bytes (256 * i) 256))

/-- The bytes of a whole check table: an entry for each of PANEL's 448 blocks. -/
def tableLength : Nat := 1792

/-- The reads of the first PANEL sectors, kept aside. -/
def panelReads (l : Layout) (sectors : Nat) : List Step :=
  (List.range sectors).map (fun i => .read (l.panel + 4096 * i) 4096 (.aside (decide (i ≠ 0))))

/-- The PANEL sectors that hold a number of blocks. -/
def panelSectors (blocks : Nat) : Nat := ceilDiv (64 * blocks) 4096

/-- The read steps of a verify (R126): what the blocks are decoded with, then the bytes themselves. R140 has COMMIT_GRID verify
a PANEL sector that holds no check block too, and R126 judges blocks alone: DESIGN CHOICE, unsafe: nothing is read back
there, so an erase that left such a sector not blank goes unnoticed (log 50). Nor does R126 say whether the whole sector that a
repeat verifies again includes what the job erased and did not program: DESIGN CHOICE, unsafe: the bytes programmed alone are
read, the first time and after a repeat (log 52). -/
def SectorWrite.verifySteps (l : Layout) (w : SectorWrite) : List Step :=
  if w.bytes.isEmpty then []
  else
    (match w.form with
      | .embedded => []
      | .panel => [.read l.panelCheck tableLength (.aside false)]
      | .checkTable => panelReads l (panelSectors w.expects.length))
    ++ [.read w.addr w.bytes.length (.verify w)]

/-- The program and verify steps of a sector's writing. -/
def SectorWrite.body (l : Layout) (w : SectorWrite) : List Step := pageSteps w.addr w.bytes ++ w.verifySteps l

/-- The steps of a sector's writing, its erase first where the job erases it. -/
def SectorWrite.steps (l : Layout) (w : SectorWrite) : List Step :=
  (if w.erased then [.erase w.sector] else []) ++ w.body l

/-- The decodes a verify finds in the bytes it read, given what was read aside (R126). -/
def SectorWrite.decodes (l : Layout) (w : SectorWrite) (bytes aside : List Byte) : List Decode :=
  match w.form with
  | .embedded => (blocksOf bytes).map decodeEmbedded
  | .panel =>
    (blocksOf bytes).zipIdx.map (fun p => decodeBlock p.1 (slice aside (4 * ((w.addr - l.panel) / 64 + p.2)) 4))
  | .checkTable =>
    (List.range w.expects.length).map (fun i => decodeBlock (slice aside (64 * i) 64) (slice bytes (4 * i) 4))

/-- Every block of the sector passes (R126). R126 judges check blocks alone and does not say what a byte of the sector that
belongs to none does (R129: PANEL_CHECK entries beyond the last PANEL block): DESIGN CHOICE, unsafe: every byte of the sector
is compared, so such a byte that differs fails the verify too (log 47). -/
def SectorWrite.passes (l : Layout) (w : SectorWrite) (bytes aside : List Byte) : Bool :=
  decide (bytes = w.bytes) && decide (w.decodes l bytes aside = w.expects)

/-- A sector of embedded blocks, all expected GOOD. -/
def embeddedWrite (sector : Nat) (erased : Bool) (addr : Nat) (bytes : List Byte) : SectorWrite :=
  { sector := sector, erased := erased, addr := addr, bytes := bytes, form := .embedded,
    expects := List.replicate (bytes.length / 64) .good, second := false }

/-! ## COMMIT_GRID (R140) -/

/-- The writing of the check table (R140 step 2): its entries have no check of their own. -/
def Grid.tableWrite (g : Grid) (l : Layout) : SectorWrite :=
  { sector := l.panelCheck, erased := true, addr := l.panelCheck, bytes := g.checkTable, form := .checkTable,
    expects := [], second := false }

/-- The writing of PANEL sector `i` (R140 steps 3 and 4). -/
def Grid.panelWrite (g : Grid) (l : Layout) (i : Nat) : SectorWrite :=
  let bytes := slice g.image (4096 * i) 4096
  let bad := g.poisonedBlocks
  { sector := l.panel + 4096 * i, erased := true, addr := l.panel + 4096 * i, bytes := bytes, form := .panel,
    expects := (List.range (bytes.length / 64)).map (fun j => if bad.contains (64 * i + j) then .poisoned else .good),
    second := false }

/-- The steps of a COMMIT_GRID job but for its append (R140). -/
def Grid.commitSteps (g : Grid) (l : Layout) : List Step :=
  [.erase l.panel] ++ (g.tableWrite l).steps l ++ (g.panelWrite l 0).body l
    ++ ((List.range 6).map (fun i => (g.panelWrite l (i + 1)).steps l)).flatten

/-! ## PARK (R144, R145) -/

/-- A run of bytes cut into blocks of 60 data bytes. -/
def chunks60 (bytes : List Byte) : List (List Byte) :=
  (List.range (ceilDiv bytes.length 60)).map (fun i => slice bytes (60 * i) 60)

/-- A list of marks packed into bytes, lowest bit first. -/
def packMarks (marks : List Bool) : List Byte :=
  (List.range (ceilDiv marks.length 8)).map (fun i => bitsByte (slice marks (8 * i) 8))

/-- The 16 bytes of one plane in the plane block (03 §3.6). -/
def planeBytes : Option PlaneRecord → List Byte
  | none => List.replicate 16 0
  | some r =>
    [(1 : Byte)] ++ le 2 r.gray ++ le 2 r.target ++ le 2 r.slope ++ le 2 r.tolLo ++ le 2 r.tolHi
      ++ [BitVec.ofNat 8 r.limit, (match r.rounding with | .nearest => 0 | .towardZero => 1), 0, 0, 0]

/-- The data bytes of the image's blocks (R144). Where the latest ring generation is 4 294 967 295 the planned image generation,
one more, does not fit the header's 32 bits, and R144 does not say what the header then holds: DESIGN CHOICE, unsafe: the whole
image is written all the same, with the planned value modulo 2^32, which is 0, before the append fails (R138, log 54). -/
def Grid.parkBlocks (g : Grid) (imageGen scale : Nat) : List (List Byte) :=
  [le 4 imageGen ++ le 4 g.generation
      ++ [BitVec.ofNat 8 g.cols, BitVec.ofNat 8 g.rows, BitVec.ofNat 8 g.width, BitVec.ofNat 8 g.shift] ++ le 2 scale,
   planeBytes g.low ++ planeBytes g.mid ++ planeBytes g.high]
    ++ chunks60 (g.codes.map byteOfInt) ++ chunks60 (packMarks g.marks)

/-- The park image (R144). -/
def Grid.parkImage (g : Grid) (imageGen scale : Nat) : List Byte := ((g.parkBlocks imageGen scale).map embedBlock).flatten

/-- The steps of a PARK job but for its append (R145). -/
def parkSteps (l : Layout) (image : List Byte) : List Step :=
  ((List.range (ceilDiv image.length 4096)).map (fun i =>
    (embeddedWrite (l.park + 4096 * i) true (l.park + 4096 * i) (slice image (4096 * i) 4096)).steps l)).flatten

/-! ## Uniformity records in use (R130, R150) -/

/-- The first test of R150 finds nothing wrong with a record. -/
def CommitRecord.uniformitySound (r : CommitRecord) : Bool :=
  decide (1 ≤ r.cols ∧ r.cols ≤ 128) && decide (1 ≤ r.rows ∧ r.rows ≤ 72) && decide (r.width = 8 ∨ r.width = 6)
    && decide (r.shift ≤ 3) && decide (r.uniLength = presentedLengthOf (3 * (r.cols * r.rows)) r.width)

/-- The PANEL blocks within the presented length of the latest uniformity record (R129 step 2); PANEL holds 448. -/
def State.uniformityBlocks (s : State) : Nat :=
  match s.latest with
  | some x => if x.record.uniformityValid then min 448 (ceilDiv x.record.uniLength 64) else 0
  | none => 0

/-! ## SCAN (R130) -/

/-- The PANEL reads of a SCAN: the check entries aside, then the sectors. -/
def scanPanelSteps (l : Layout) (blocks : Nat) : List Step :=
  [.read l.panelCheck (4 * blocks) (.aside false)]
    ++ (List.range (panelSectors blocks)).map (fun i =>
      .read (l.panel + 4096 * i) (min 4096 (64 * blocks - 4096 * i)) (.scanPanel i))

/-- The steps of a SCAN job (R130). -/
def State.scanSteps (s : State) (l : Layout) : List Step :=
  (List.range 16).map (fun k => .read (keySlotAddr l k) 512 (.scanSlot k))
    ++ [.read l.ring 4096 (.scanRing 0), .read (l.ring + 4096) 4096 (.scanRing 1)]
    ++ (match s.latest with
        | some x =>
          if x.record.uniformityValid && x.record.uniformitySound then scanPanelSteps l (ceilDiv x.record.uniLength 64)
          else []
        | none => [])

/-! ## The sector-buffer rewrite (R129) -/

/-- How the bytes of a sector form check blocks. -/
def Layout.formOf (l : Layout) (sector : Nat) : BlockForm :=
  if l.inWindow .panel sector then .panel else if sector = l.panelCheck then .checkTable else .embedded

/-- The page reads of a sector into the buffer; the last of them has a use of its own. -/
def loadSteps (sector : Nat) (last : Use) : List Step :=
  (List.range 16).map (fun i => .read (sector + 256 * i) 256 (if i = 15 then last else .loadPage))

/-- The read steps of a rewrite: the sector into the buffer, and what its blocks are decoded with aside (R129 steps 1
and 2). -/
def rewriteReads (l : Layout) (blocks : Nat) (rw : Rewrite) : List Step :=
  match l.formOf rw.sector with
  | .embedded => loadSteps rw.sector (.plan true rw)
  | .panel => loadSteps rw.sector .loadPage ++ [.read l.panelCheck tableLength (.plan false rw)]
  | .checkTable =>
    match panelSectors blocks with
    | 0 => loadSteps rw.sector (.plan true rw)
    | n + 1 =>
      loadSteps rw.sector .loadPage ++ panelReads l n ++ [.read (l.panel + 4096 * n) 4096 (.plan false rw)]

/-- A block as a rewrite finds it: its bytes as the buffer is to hold them, and its decode. -/
structure Found where
  bytes : List Byte
  decode : Decode
deriving DecidableEq, Repr

/-- What verify expects of a block that was carried (R126, R129). -/
def Decode.carried : Decode → Decode
  | .blank => .blank
  | .poisoned => .poisoned
  | .uncorrectable => .uncorrectable
  | .good => .good
  | .checkOnly => .good
  | .repaired _ _ => .good

/-- An embedded block found: its repair made, a wrong check written anew (R129 step 3). -/
def foundEmbedded (block : List Byte) : Found :=
  let d := decodeEmbedded block
  { bytes := repairData (slice block 0 60) d
      ++ (if d = .checkOnly then checkOf (slice block 0 60) else slice block 60 4),
    decode := d }

/-- A PANEL block found with its table entry: a data byte repaired (R129 step 3). -/
def foundPanel (data check : List Byte) : Found :=
  let d := decodeBlock data check
  { bytes := repairData data d, decode := d }

/-- A table entry found with its block's data: an entry wrong while its data is right is written anew (R129 step 3). -/
def foundEntry (data check : List Byte) : Found :=
  let d := decodeBlock data check
  { bytes := if d = .checkOnly then checkOf data else check, decode := d }

/-- The blocks of a sector as a rewrite finds them (R129 steps 2 and 3). -/
def foundBlocks (l : Layout) (blocks sector : Nat) (buffer aside : List Byte) : List Found :=
  match l.formOf sector with
  | .embedded => (blocksOf buffer).map foundEmbedded
  | .panel =>
    (blocksOf buffer).zipIdx.map (fun p => foundPanel p.1 (slice aside (4 * ((sector - l.panel) / 64 + p.2)) 4))
  | .checkTable =>
    (List.range blocks).map (fun i => foundEntry (slice aside (64 * i) 64) (slice buffer (4 * i) 4))

/-- What verify expects of a spliced block: BLANK where it is all 0xFF, else GOOD (R126, R165). -/
def spliceExpects (bytes : List Byte) : List Decode :=
  (blocksOf bytes).map (fun b => if b.all (fun x => x == erasedByte) then .blank else .good)

/-- The writing a rewrite comes to: the repaired buffer with the owner's content spliced in (R129 steps 3 to 7). -/
def Rewrite.write (l : Layout) (blocks : Nat) (rw : Rewrite) (buffer aside : List Byte) : SectorWrite :=
  let found := foundBlocks l blocks rw.sector buffer aside
  let repaired := overwrite buffer 0 (found.map Found.bytes).flatten
  let expects := found.map (fun f => f.decode.carried)
  let bytes := match rw.splice with
    | some p => overwrite repaired (p.1 - rw.sector) p.2
    | none => repaired
  let expected := match rw.splice with
    | some p => overwrite expects ((p.1 - rw.sector) / 64) (spliceExpects p.2)
    | none => expects
  { sector := rw.sector, erased := true, addr := rw.sector, bytes := bytes, form := l.formOf rw.sector,
    expects := expected, second := rw.second }

/-- Some block of the sector decoded CORRECTED (R132). -/
def Rewrite.corrects (l : Layout) (blocks : Nat) (rw : Rewrite) (buffer aside : List Byte) : Bool :=
  (foundBlocks l blocks rw.sector buffer aside).any (fun f => f.decode.corrected)

end Sys2Proof.Machine
end

