-- ==== Sys2Proof/Machine/Jobs.lean ====
section
/-! DEFINITION. The job queue of the Flash Sequencer: how a job starts, appends its record and ends, and how the next one
starts at once (09 §9.4, 10 §10.3, 11, 12); and the lapse of the session, which queues a job of its own (R22). -/

namespace Sys2Proof.Machine

/-- The job in progress replaced. -/
def State.withActive (s : State) (a : Active) : State := { s with seq := { s.seq with active := some a } }

/-! ## A job ends (R127) -/

/-- The staging buffer returned to IDLE (R157). -/
def State.clearStaging (s : State) : State := { s with staging := Staging.idle }

/-- The end actions of a job; `ok` when it ended in success (R127, R146, R163, R165, R172, R176). A session that is not OPEN
is left as it stands: R19 gives CLOSED from OPEN alone, and no run reaches another case (log 41). -/
def State.endActions (s : State) (a : Active) (ok : Bool) : State :=
  match a.job.kind with
  | .commitGrid => s.unlock
  | .park => if ok then State.unlock { s with history := s.history.clear } else s.unlock
  | .keyStore =>
    if ok then (s.setKey a.job.slot ((a.data.key.map Prod.fst).getD KeyEntry.empty)).clearStaging
    else (s.damageKey a.job.slot KeyEntry.empty).clearStaging
  | .keyErase => if ok then s.setKey a.job.slot KeyEntry.empty else s.damageKey a.job.slot KeyEntry.empty
  | .regionSelect =>
    match ok, a.data.header with
    | true, some h =>
      let sel : Selection := { slot := a.job.slot, id := h.id, scale := h.scale }
      { s with region := { s.region with selected := some sel, classes := some h.classes } }
    | _, _ => s
  | .closeOut =>
    if ok ∧ s.session.state = .opened then { s with session := { s.session with state := .closed } } else s
  | .scan => s
  | .scrub => s

/-- A job ends: its outcome entry is written, its end actions are taken, and no job is in progress (R127). What the sector
buffer then holds no rule says: the model keeps its bytes until the next rewrite empties it (log 43). -/
def State.endJob (s : State) (a : Active) (o : JobOutcome) (ringGen : Nat) : State :=
  State.endActions
    { s with
      intake := { s.intake with
        outcomes := recordOutcome s.intake.outcomes (a.job.kind.code - 1) a.job.tag o ringGen }
      seq := { s.seq with active := none } }
    a (decide (o = .done ∨ o = .donePoisoned))

/-- A job ends VERIFY_FAILED with a JOB_FAILED condition for a sector (R126, R138). -/
def State.failJob (s : State) (a : Active) (sector : Nat) : State :=
  (s.raise { cls := .jobFailed, address := some sector }).endJob a .verifyFailed 0

/-! ## The append (R136 to R139) -/

/-- The record base an append copies (R136). -/
def State.recordBase (s : State) : CommitRecord :=
  match s.latest with
  | some x => x.record
  | none => CommitRecord.base

/-- The ring generation the next record takes (R138), which a PARK plans as its image generation (R144). It may be 2^32, which
no append takes; what a PARK's header then holds is the model's choice (DESIGN CHOICE, unsafe, log 54). -/
def State.nextRingGen (s : State) : Nat :=
  match s.latest with
  | some x => x.record.ringGen + 1
  | none => 1

/-- The fields common to every kind of record (R136). -/
def State.commonRecord (s : State) (kind : RecordKind) : CommitRecord :=
  { s.recordBase with
    kind := kind.code, station := s.session.station, ringGen := s.nextRingGen, timeValid := s.session.timeValid,
    day := if s.session.timeValid then s.session.day else 0,
    seconds := if s.session.timeValid then s.session.seconds else 0 }

/-- The commit record of a job (R136, R143, R146, R163, R172, R176). -/
def State.buildRecord (s : State) (a : Active) : CommitRecord :=
  match a.job.kind with
  | .commitGrid =>
    let g := a.data.grid.getD Grid.empty
    { s.commonRecord .uniformity with
      uniformityValid := true, uniGen := g.generation, uniLength := g.presentedLength, width := g.width,
      shift := g.shift, cols := g.cols, rows := g.rows, poisoned := a.data.poisoned, unknown := g.markCount }
  | .park =>
    let g := a.data.grid.getD Grid.empty
    { s.commonRecord .park with parkValid := true, parkGen := g.generation, parkImage := a.data.imageGen }
  | .keyStore =>
    { s.commonRecord .keys with
      keySet := classBits (((a.data.key.map (fun k => k.1.cls)).getD 0) :: s.heldClasses a.job.slot) }
  | .keyErase => { s.commonRecord .keys with keySet := classBits (s.heldClasses a.job.slot) }
  | .regionSelect =>
    match a.data.header with
    | some h =>
      { s.commonRecord .region with
        regionValid := true, regionSlot := a.job.slot, profileId := h.id, regionScale := h.scale }
    | none => s.commonRecord .region
  | .closeOut => { s.commonRecord .closeOut with closed := true }
  | .scan => s.recordBase
  | .scrub => s.recordBase

/-- The first address of the ring sector of a slot. -/
def ringSectorAddr (l : Layout) (slot : Nat) : Nat := l.ring + 4096 * (slot / 64)

/-- The append turns to a target slot: the erase of a ring sector at its first slot, and the read of the slot
(R138 steps 2 and 3). -/
def State.probeSlotOfRing (s : State) (l : Layout) (a : Active) (target : Nat) : State :=
  s.withActive
    { a with
      stage := .append, phase := .waiting
      data := { a.data with target := target, ringErased := a.data.ringErased || decide (target % 64 = 0) }
      todo := (if target % 64 = 0 then [.erase (ringSectorAddr l target)] else [])
        ++ [.read (ringSlotAddr l target) 64 .probeTarget] }

/-- The job's other steps have ended in success: its append begins (R137, R138). -/
def State.startAppend (s : State) (l : Layout) (a : Active) : State :=
  match s.latest with
  | some x =>
    if genMax ≤ x.record.ringGen then s.failJob a l.ring else s.probeSlotOfRing l a ((x.slot + 1) % 128)
  | none => s.probeSlotOfRing l a 0

/-- The outcome of a job whose append has verified (R143). -/
def Active.doneOutcome (a : Active) : JobOutcome :=
  if a.job.kind = .commitGrid ∧ 0 < a.data.poisoned then .donePoisoned else .done

/-- The append has verified: the latest-record state becomes the new record, and the job ends (R138 step 5). -/
def State.appendDone (s : State) (a : Active) : State :=
  match a.data.record with
  | some r => State.endJob { s with latest := some { slot := a.data.target, record := r } } a a.doneOutcome r.ringGen
  | none => s

/-! ## From one step to the next -/

/-- The job appends no record (R137). -/
def JobKind.appendsNone : JobKind → Bool
  | .scan => true
  | .scrub => true
  | _ => false

/-- A step has completed; these are left. With none left the job's work or its append is over (R127, R137). -/
def State.proceed (s : State) (l : Layout) (a : Active) (rest : List Step) : State :=
  match rest, a.stage with
  | _ :: _, _ => s.withActive { a with todo := rest, phase := .waiting }
  | [], .append => s.appendDone a
  | [], .work => if a.job.kind.appendsNone then s.endJob a .done 0 else s.startAppend l a

/-- A sector-buffer rewrite begins, with an empty buffer; these steps follow it (R129). -/
def State.beginRewrite (s : State) (l : Layout) (a : Active) (rw : Rewrite) (rest : List Step) : State :=
  State.withActive { s with seq := { s.seq with buffer := [] } }
    { a with todo := rewriteReads l s.uniformityBlocks rw ++ rest, phase := .waiting, data := { a.data with aside := [] } }

/-! ## A job starts (R122) -/

/-- A job at its start. -/
def freshJob (j : Job) (data : JobData) (todo : List Step) : Active :=
  { job := j, stage := .work, todo := todo, phase := .waiting, data := data }

/-- The grid lock taken (R46). -/
def State.lockGrid (s : State) (k : JobKind) : State := { s with grid := { s.grid with lock := some k } }

/-- The table entry a KEY_STORE job builds at its start (R153, R162). -/
def State.builtKey (s : State) : KeyEntry :=
  { KeyEntry.empty with
    state := .present, cls := s.staging.cls, length := s.staging.total, station := s.session.station,
    day := if s.session.timeValid then s.session.day else 0,
    seconds := if s.session.timeValid then s.session.seconds else 0 }

/-- A KEY_STORE job starts (R162). -/
def State.startKeyStore (s : State) (l : Layout) (j : Job) : State :=
  let e := s.builtKey
  let bytes := keySlotBytes (keySlotData j.slot e s.staging.payload)
  let addr := keySlotAddr l j.slot
  let data := { JobData.empty with key := some (e, bytes) }
  if (s.keyEntry j.slot).prior = .empty then s.withActive (freshJob j data [.read addr 512 .probeSlot])
  else
    s.beginRewrite l (freshJob j data [])
      { sector := sectorOf addr, splice := some (addr, bytes), scrub := false, second := false } []

/-- A job starts with its owner's start actions (R122). -/
def State.startJob (s : State) (l : Layout) (j : Job) : State :=
  match j.kind with
  | .commitGrid =>
    (s.lockGrid .commitGrid).withActive
      (freshJob j { JobData.empty with grid := some s.grid, poisoned := s.grid.poisonedCount } (s.grid.commitSteps l))
  | .park =>
    (s.lockGrid .park).withActive
      (freshJob j { JobData.empty with grid := some s.grid, imageGen := s.nextRingGen }
        (parkSteps l (s.grid.parkImage s.nextRingGen s.scale)))
  | .keyStore => s.startKeyStore l j
  | .keyErase =>
    let addr := keySlotAddr l j.slot
    s.beginRewrite l (freshJob j JobData.empty [])
      { sector := sectorOf addr, splice := some (addr, List.replicate 512 erasedByte), scrub := false, second := false } []
  | .regionSelect => s.withActive (freshJob j JobData.empty [.read (profileAddr l j.slot) 64 .header])
  | .closeOut => s.startAppend l (freshJob j JobData.empty [])
  | .scan => s.withActive (freshJob j JobData.empty (s.scanSteps l))
  | .scrub =>
    s.beginRewrite l (freshJob j JobData.empty []) { sector := j.sector, splice := none, scrub := true, second := false } []

/-- The waiting jobs start in turn while none is in progress (R122): the head, and the next where a job ends at its start
(R138). -/
def State.startFrom (s : State) (l : Layout) : List Job → State
  | [] => s
  | j :: t =>
    if s.seq.active.isNone then
      State.startFrom (State.startJob { s with seq := { s.seq with waiting := t } } l j) l t
    else s

/-- A job was queued, or the job in progress has ended: the head of the waiting jobs starts at once when none is in progress
(R122). -/
def State.startDue (s : State) : State :=
  match s.layout with
  | some l => s.startFrom l s.seq.waiting
  | none => s

/-! ## The lapse (R22) -/

/-- The lapse of the session (R22). -/
def State.lapse (s : State) : State :=
  let s1 := { s with session := { s.session with state := .lapsed } }
  if s.unsaved then
    if s.queueFull then s1.raise { cls := .sessionLapse, parkNotQueued := true }
    else ((s1.raise { cls := .sessionLapse }).queueJob (plainJob .park 0)).startDue
  else s1.raise { cls := .sessionLapse }

/-- IDLE_TIMER_EXPIRY (R22, R23): only a running timer expires (log 2). -/
def execIdleTimerExpiry (s : State) : Host.Outcome State Fault Refusal :=
  match s.session.timer with
  | .running _ => .next s.lapse.settle
  | .stopped => .next s.settle
  | .held => .next s.settle

/-- JOB_START (R122). The events that let a job start do so within their own steps, so this row acts on its own only in a
state that no run reaches (log 13). -/
def execJobStart (s : State) : Host.Outcome State Fault Refusal := .next s.startDue.settle

end Sys2Proof.Machine
end

