-- ==== Sys2Proof/Machine/Records.lean ====
section
/-! DEFINITION. The Aperture Intake: taking a record (R28 to R33), and the record commands, each the taking of a record of
its kind at the Intake (log 14). -/

namespace Sys2Proof.Machine

/-- MASK at its owner (R182). -/
def judgeMask (body : List Byte) (s : State) : State × Result :=
  let m : BitVec 16 := BitVec.ofNat 16 (fieldAt body 0 2)
  ({ s with conds := { s.conds with mask := m &&& maskable } },
    if m &&& ~~~maskable = 0 then .accepted else .truncated)

/-- RETIRE at its owner (R180). -/
def judgeRetire (s : State) : State × Result :=
  match s.conds.records with
  | [] => (s, .queueEmpty)
  | _ :: t => ({ s with conds := { s.conds with records := t } }, .accepted)

/-- The refusal the session state gives a kind before its owner sees it (R31). -/
def sessionRefusal (n : SessionState) (k : Kind) : Option Result :=
  match n with
  | .dormant => if k = .sessionOpen ∨ k = .mask ∨ k = .retire then none else some .noSession
  | .lapsed => if k = .sessionOpen then none else some .lapsed
  | .closed => if k = .mask ∨ k = .retire then none else some .closed
  | .opened => none

/-- The owner of a kind judges a record whose body is long enough (R32). -/
def judgeKind (k : Kind) (tag : Byte) (body : List Byte) (s : State) : State × Result :=
  match k with
  | .sessionOpen => judgeSessionOpen body s
  | .resetSession => judgeResetSession s
  | .mask => judgeMask body s
  | .retire => judgeRetire s
  | .geometry => judgeGeometry body s
  | .format => judgeFormat body s
  | .plane => judgePlane body s
  | .frameOpen => judgeFrameOpen body s
  | .zones => judgeZones body s
  | .frameClose => judgeFrameClose body s
  | .frameAbandon => judgeFrameAbandon body s
  | .rollback => judgeRollback s
  | .watch => judgeWatch body s
  | .commit => judgeGridJob .commitGrid tag s
  | .park => judgeGridJob .park tag s
  | .scan => judgeScan tag s
  | .keyStage => judgeKeyStage body s
  | .keyMore => judgeKeyMore body s
  | .keyStore => judgeKeyStore tag s
  | .keyErase => judgeKeyErase tag body s
  | .keyUnstage => judgeKeyUnstage s
  | .region => judgeRegion tag body s
  | .closeOut => judgeCloseOut tag s

/-- A framed record of a known kind judged: by the session state, by its body's length, by its owner (R31, R32). -/
def judgeRecord (k : Kind) (tag : Byte) (body : List Byte) (s : State) : State × Result :=
  match sessionRefusal s.session.state k with
  | some r => (s, r)
  | none => if body.length < k.bodyLength then (s, .range) else judgeKind k tag body s

/-- The last tag and result written, and the record counted (R33). -/
def State.noteRecord (s : State) (tag : Byte) (r : Result) : State :=
  { s with intake := { s.intake with lastTag := tag, lastResult := r,
                                     recordCount := (s.intake.recordCount + 1) % 65536 } }

/-- A record that has been judged: its answer is noted, and a job it queued starts at once where none is in progress (R33,
R122). QUEUED is the answer of a record that has put a job on the queue (R32). -/
def State.concludeRecord (s : State) (tag : Byte) (r : Result) : State :=
  if r = .queued then (s.noteRecord tag r).startDue else s.noteRecord tag r

/-- A framed record of a known kind taken (R29). -/
def State.takeRecord (s : State) (k : Kind) (tag : Byte) (body : List Byte) : State :=
  (judgeRecord k tag body s).1.concludeRecord tag (judgeRecord k tag body s).2

/-- A framed record taken by its kind byte (R31 step 1). -/
def State.takeFramed (s : State) (f : Framed) : State :=
  match kindOf f.kind with
  | some k => s.takeRecord k f.tag f.body
  | none => s.noteRecord f.tag .unknownKind

/-- The bytes of a program into the aperture taken as a record (R28 to R30). -/
def State.takeProgram (s : State) (offset : Nat) (data : List Byte) : State :=
  match frameRecord offset data with
  | .inl f => s.takeFramed f
  | .inr (some tag) => s.noteRecord tag .framing
  | .inr none => State.noteRecord { s with draws := s.draws + 1 } (Config.collectedByte s.draws) .framing

/-- A record can reach the Intake: COMMISSIONING mode, the upstream lane served, and no transaction in progress
(R1, R19, R42). -/
def State.recordsReach (s : State) : Bool :=
  decide (s.mode = .commissioning) && !s.sysHold && !s.sysRst && s.upstream.isNone

/-- A record command's effect: the record taken, where one can reach the part (log 2, 14). -/
def State.recordCommand (s : State) (k : Kind) (tag : Byte) (body : List Byte) : State :=
  (if s.recordsReach then s.takeRecord k tag body else s).settle

/-! ## The commands -/

/-- RECORD_FRAMING (R30). -/
def execRecordFraming (offset : Byte) (data : List Byte) (s : State) : Host.Outcome State Fault Refusal :=
  .next (if s.recordsReach then s.takeProgram offset.toNat data else s).settle

/-- RECORD_UNKNOWN_KIND (R31). -/
def execRecordUnknownKind (kind tag : Byte) (body : List Byte) (s : State) : Host.Outcome State Fault Refusal :=
  .next (if s.recordsReach then s.takeFramed { kind := kind, tag := tag, body := body } else s).settle

/-- SESSION_OPEN (R20). -/
def execSessionOpen (tag : Byte) (body : List Byte) (s : State) : Host.Outcome State Fault Refusal :=
  .next (s.recordCommand .sessionOpen tag body)

/-- RESET_SESSION (R27). -/
def execResetSession (tag : Byte) (body : List Byte) (s : State) : Host.Outcome State Fault Refusal :=
  .next (s.recordCommand .resetSession tag body)

/-- MASK (R182). -/
def execMask (tag : Byte) (body : List Byte) (s : State) : Host.Outcome State Fault Refusal :=
  .next (s.recordCommand .mask tag body)

/-- RETIRE (R180). -/
def execRetire (tag : Byte) (body : List Byte) (s : State) : Host.Outcome State Fault Refusal :=
  .next (s.recordCommand .retire tag body)

/-- GEOMETRY (R40). -/
def execGeometry (tag : Byte) (body : List Byte) (s : State) : Host.Outcome State Fault Refusal :=
  .next (s.recordCommand .geometry tag body)

/-- FORMAT (R50). -/
def execFormat (tag : Byte) (body : List Byte) (s : State) : Host.Outcome State Fault Refusal :=
  .next (s.recordCommand .format tag body)

/-- PLANE (R48). -/
def execPlane (tag : Byte) (body : List Byte) (s : State) : Host.Outcome State Fault Refusal :=
  .next (s.recordCommand .plane tag body)

/-- FRAME_OPEN (R55). -/
def execFrameOpen (tag : Byte) (body : List Byte) (s : State) : Host.Outcome State Fault Refusal :=
  .next (s.recordCommand .frameOpen tag body)

/-- ZONES (R57). -/
def execZones (tag : Byte) (body : List Byte) (s : State) : Host.Outcome State Fault Refusal :=
  .next (s.recordCommand .zones tag body)

/-- FRAME_CLOSE (R60). -/
def execFrameClose (tag : Byte) (body : List Byte) (s : State) : Host.Outcome State Fault Refusal :=
  .next (s.recordCommand .frameClose tag body)

/-- FRAME_ABANDON (R62). -/
def execFrameAbandon (tag : Byte) (body : List Byte) (s : State) : Host.Outcome State Fault Refusal :=
  .next (s.recordCommand .frameAbandon tag body)

/-- ROLLBACK (R92). -/
def execRollback (tag : Byte) (body : List Byte) (s : State) : Host.Outcome State Fault Refusal :=
  .next (s.recordCommand .rollback tag body)

/-- WATCH (R112). -/
def execWatch (tag : Byte) (body : List Byte) (s : State) : Host.Outcome State Fault Refusal :=
  .next (s.recordCommand .watch tag body)

/-- COMMIT (R51). -/
def execCommit (tag : Byte) (body : List Byte) (s : State) : Host.Outcome State Fault Refusal :=
  .next (s.recordCommand .commit tag body)

/-- PARK (R51). -/
def execPark (tag : Byte) (body : List Byte) (s : State) : Host.Outcome State Fault Refusal :=
  .next (s.recordCommand .park tag body)

/-- SCAN (R123). -/
def execScan (tag : Byte) (body : List Byte) (s : State) : Host.Outcome State Fault Refusal :=
  .next (s.recordCommand .scan tag body)

/-- KEY_STAGE (R158). -/
def execKeyStage (tag : Byte) (body : List Byte) (s : State) : Host.Outcome State Fault Refusal :=
  .next (s.recordCommand .keyStage tag body)

/-- KEY_MORE (R159). -/
def execKeyMore (tag : Byte) (body : List Byte) (s : State) : Host.Outcome State Fault Refusal :=
  .next (s.recordCommand .keyMore tag body)

/-- KEY_STORE (R161). -/
def execKeyStore (tag : Byte) (body : List Byte) (s : State) : Host.Outcome State Fault Refusal :=
  .next (s.recordCommand .keyStore tag body)

/-- KEY_ERASE (R164). -/
def execKeyErase (tag : Byte) (body : List Byte) (s : State) : Host.Outcome State Fault Refusal :=
  .next (s.recordCommand .keyErase tag body)

/-- KEY_UNSTAGE (R160). -/
def execKeyUnstage (tag : Byte) (body : List Byte) (s : State) : Host.Outcome State Fault Refusal :=
  .next (s.recordCommand .keyUnstage tag body)

/-- REGION (R171). -/
def execRegion (tag : Byte) (body : List Byte) (s : State) : Host.Outcome State Fault Refusal :=
  .next (s.recordCommand .region tag body)

/-- CLOSE_OUT (R174). -/
def execCloseOut (tag : Byte) (body : List Byte) (s : State) : Host.Outcome State Fault Refusal :=
  .next (s.recordCommand .closeOut tag body)

end Sys2Proof.Machine
end

