-- ==== Sys2Proof/Machine/Lane.lean ====
section
/-! DEFINITION. The Lane Front End: how an upstream transaction begins, passes bytes and ends, and the lane commands
(01). -/

namespace Sys2Proof.Machine

/-! ## Windows in the mode in force (R5) -/

/-- The window an address is judged by: PASS everywhere in BYPASS, and for APERTURE outside COMMISSIONING (R5). -/
def State.windowOf (s : State) (a : Nat) : Window :=
  match s.mode, s.layout with
  | .bypass, _ => .pass
  | _, none => .pass
  | .normal, some l => if l.windowOf a = .aperture then .pass else l.windowOf a
  | .commissioning, some l => l.windowOf a

/-- A sector is the guarded header sector of the selected profile slot (R173). -/
def State.guarded (s : State) (sector : Nat) : Bool :=
  match s.layout, s.region.selected with
  | some l, some r => decide (sector = profileAddr l r.slot)
  | _, _ => false

/-- A program or erase of an address would be forwarded (R5). An aperture program is judged apart (R7). -/
def State.forwards (s : State) (a : Nat) : Bool :=
  match s.windowOf a with
  | .pass => true
  | .profiles => !s.guarded (sectorOf a)
  | _ => false

/-- The lowest sector of a block that would be withheld (R7). -/
def State.firstWithheld (s : State) (block : Nat) : Option Nat :=
  ((List.range 16).map (fun i => block + 4096 * i)).find? (fun x => !s.forwards x)

/-- The treatment decided for a transaction (R2, R4, R5, R7, R11). -/
def State.treatmentOf (s : State) (c : LaneCommand) (a : Nat) (occ : Bool) : Treatment :=
  match c with
  | .incomplete => .answered
  | .read => .served
  | .fastRead => .served
  | .pageProgram =>
    if s.windowOf a = .aperture then .record
    else if occ || !s.forwards a then .withheld (s.windowOf a) (some (sectorOf a))
    else .forwarded
  | .sectorErase =>
    if occ || !s.forwards a then .withheld (s.windowOf a) (some (sectorOf a)) else .forwarded
  | .blockErase =>
    if occ then .withheld (s.windowOf (blockOf a)) (some (blockOf a))
    else match s.firstWithheld (blockOf a) with
      | some x => .withheld (s.windowOf x) (some x)
      | none => .forwarded
  | .chipErase => if s.mode = .bypass then .forwarded else .withheld .pass none
  | .writeEnable => if occ then .answered else .forwarded
  | .writeDisable => if occ then .answered else .forwarded
  | .readStatus => if occ then .answered else .forwarded
  | .readId => if occ then .answered else .forwarded
  | .unrecognised _ => if s.mode = .bypass then .forwarded else .answered

/-! ## The sequencer's read gives way (R12, R125) -/

/-- A job's read in progress is cut, and a status answer not yet used grows stale (R12, R124, R125, log 19). -/
def Active.cut (a : Active) : Active :=
  match a.phase with
  | .occupied => a
  | _ => { a with phase := .waiting }

/-- The job in progress has its read cut. -/
def State.cutRead (s : State) : State := { s with seq := { s.seq with active := s.seq.active.map Active.cut } }

/-! ## Command bytes (R2) -/

/-- The table of R2: each command byte and the command it picks. -/
def commandTable : List (Byte × LaneCommand) :=
  [(0x03, .read), (0x0B, .fastRead), (0x02, .pageProgram), (0x20, .sectorErase), (0xD8, .blockErase), (0xC7, .chipErase),
   (0x06, .writeEnable), (0x04, .writeDisable), (0x05, .readStatus), (0x9F, .readId)]

/-- The command a command byte picks: its row of the table, else an unrecognised command (R2, R4). -/
def commandOf (b : Byte) : LaneCommand :=
  match commandTable.find? (fun r => r.1 == b) with
  | some r => r.2
  | none => .unrecognised b

/-- The command byte of a command; `none` for one that was not complete. -/
def LaneCommand.byte : LaneCommand → Option Byte
  | .incomplete => none
  | .unrecognised b => some b
  | c => (commandTable.find? (fun r => decide (r.2 = c))).map Prod.fst

/-! ## A transaction begins -/

/-- The upstream lane is ignored (R1). -/
def State.laneIgnored (s : State) : Bool := s.sysHold || s.sysRst

/-- The treatment keeps the command from the flash and clears the shadow (R8 steps 1 to 3). -/
def Treatment.withholds : Treatment → Bool
  | .withheld _ _ => true
  | .record => true
  | _ => false

/-- U_CS asserts and the command and address pass (R1): the sequencer's read is cut, the treatment is decided, and a
withheld command's shadow and WRITE DISABLE follow (R8). That a flash at an operation of its own takes that WRITE DISABLE is
the model's choice (log 38). -/
def State.select (s : State) (c : LaneCommand) (a : Nat) : State :=
  let t : Txn :=
    { ignored := s.laneIgnored, command := c, addr := a, occupied := s.occupied,
      treatment := s.treatmentOf c a s.occupied, remapSlot := s.region.selected.map (fun r => r.slot), served := 0,
      data := [], firstFilled := none, overlayGen := none, pages := [] }
  let s1 := { s with upstream := some t, served := [] }
  if s.laneIgnored then s1
  else if t.treatment.withholds then
    { s1.cutRead with shadow := false, flash := if s.occupied then s.flash else s.flash.setLatch false }
  else s1.cutRead

/-! ## Bytes pass -/

/-- Where a byte of a read comes from (R6). -/
inductive Source where
  | flash (addr : Nat)
  | overlay (offset : Nat)
  | page (number : Nat) (offset : Nat)
deriving DecidableEq, Repr

/-- The source R5 gives for an address of a read (R6); the remap is the one in force when the transaction began. -/
def State.source (s : State) (remapSlot : Option Nat) (a : Nat) : Source :=
  match s.windowOf a, s.layout with
  | .aperture, some l => .page ((a - l.aperture) / 256) (a % 256)
  | .panel, some l =>
    if s.overlayActive ∧ a - l.panel < s.grid.presentedLength then .overlay (a - l.panel) else .flash a
  | .remap, some l =>
    match remapSlot with
    | some k => .flash (profileAddr l k + (a - l.remap))
    | none => .flash a
  | _, _ => .flash a

/-- A byte goes out on U_SO. -/
def State.emit (s : State) (t : Txn) (b : Byte) : State :=
  { s with served := s.served ++ [b], upstream := some { t with served := t.served + 1 } }

/-- One byte of a READ or FAST READ (R6, R11, R35, R45). R1 gives 0xFF for an ignored transaction while SYS_HOLD or SYS_RST is
asserted; that one still selected once the line is released goes on reading 0xFF is the model's choice (DESIGN CHOICE,
unsafe, log 49). -/
def State.serveByte (s : State) : State :=
  match s.upstream with
  | none => s
  | some t =>
    if t.ignored then s.emit t erasedByte
    else
      let a := (t.addr + t.served) % flashSize
      match s.source t.remapSlot a with
      | .page n o =>
        match t.pages.find? (fun p => p.1 == n) with
        | some p => s.emit t (p.2.getD o 0)
        | none => s.emit { t with pages := (n, s.responsePage n) :: t.pages } ((s.responsePage n).getD o 0)
      | .overlay o =>
        State.emit { s with grid := { s.grid with hold := true } }
          { t with overlayGen := some (t.overlayGen.getD s.grid.generation) } (s.grid.overlayByte o)
      | .flash x =>
        if t.occupied then s.emit { t with firstFilled := some (t.firstFilled.getD a) } erasedByte
        else s.emit t (Memory.get s.flash.cells (x % flashSize))

/-- `n` bytes of a READ or FAST READ. -/
def State.serveBytes (s : State) : Nat → State
  | 0 => s
  | n + 1 => State.serveBytes s.serveByte n

/-- One status byte: the part's own inside an occupied period (R11), else the flash's (R3, log 9). -/
def State.statusByte (s : State) (busy : Bool) : State :=
  match s.upstream with
  | none => s
  | some t =>
    if t.ignored then s.emit t erasedByte
    else if t.treatment = .forwarded then
      let still := busy && s.flash.op.isSome
      let b : Byte := BitVec.ofNat 8
        ((if still then 1 else 0) + (if s.flash.latch then 2 else 0) + 4 * (Config.statusHighBits s.draws).toNat)
      State.emit { s with flash := { s.flash with op := if still then s.flash.op else none }, draws := s.draws + 1 } t b
    else s.emit t (bitsByte [false, s.shadow])

/-- `n` status bytes, of which the flash answers the first `busyFor` while its own operation still runs. -/
def State.statusBytes (s : State) : Nat → Nat → State
  | 0, _ => s
  | n + 1, busyFor => State.statusBytes (s.statusByte (decide (0 < busyFor))) n (busyFor - 1)

/-- One byte of a READ ID: the flash's (log 9), or fill inside an occupied period (R11). -/
def State.idByte (s : State) : State :=
  match s.upstream with
  | none => s
  | some t =>
    if t.ignored then s.emit t erasedByte
    else if t.treatment = .forwarded then s.emit t (Config.identificationByte t.served)
    else s.emit t erasedByte

/-- `n` bytes of a READ ID. -/
def State.idBytes (s : State) : Nat → State
  | 0 => s
  | n + 1 => State.idBytes s.idByte n

/-- Data bytes of a program reach the part (R28). -/
def State.takeData (s : State) (data : List Byte) : State :=
  match s.upstream with
  | none => s
  | some t => { s with upstream := some { t with data := t.data ++ data } }

/-- One byte behind an unrecognised command: 0xFF (R4), or in BYPASS the flash's answer (log 10). -/
def State.unknownByte (s : State) (b : Byte) : State :=
  match s.upstream with
  | none => s
  | some t =>
    let t1 := { t with data := t.data ++ [b] }
    match t.ignored, t.treatment, t.command with
    | false, .forwarded, .unrecognised c => s.emit t1 (Config.unrecognisedAnswer s.draws c t.served)
    | _, _, _ => s.emit t1 erasedByte

/-- The bytes behind an unrecognised command. -/
def State.unknownBytes (s : State) : List Byte → State
  | [] => s
  | b :: t => State.unknownBytes (s.unknownByte b) t

/-! ## A transaction ends -/

/-- A counter set changed (R13). -/
def State.charge (s : State) (w : Window) (f : CounterSet → CounterSet) : State :=
  { s with counters := modifyAt s.counters w.index f }

/-- One more read, saturating (R13). -/
def CounterSet.addRead (c : CounterSet) : CounterSet := { c with reads := satSucc 65535 c.reads }

/-- One more write, saturating (R13). -/
def CounterSet.addWrite (c : CounterSet) : CounterSet := { c with writes := satSucc 65535 c.writes }

/-- One more withheld command, saturating (R13). -/
def CounterSet.addWithheld (c : CounterSet) : CounterSet := { c with withheld := satSucc 65535 c.withheld }

/-- The address a forwarded write is charged and reported against: a BLOCK ERASE's first sector, else the start address
(R13, R170). -/
def Txn.judgedAddr (t : Txn) : Nat := if t.command = .blockErase then blockOf t.addr else t.addr

/-- The flash takes a forwarded command that changes it (R3; free values: log 10). That it does so while an operation of its
own is in progress is the model's choice (log 38). -/
def State.flashTakes (s : State) (t : Txn) : State :=
  match t.command with
  | .pageProgram => { s with flash := s.flash.program t.addr t.data }
  | .sectorErase => { s with flash := s.flash.erase (sectorOf t.addr) 4096 }
  | .blockErase => { s with flash := s.flash.erase (blockOf t.addr) 65536 }
  | .chipErase => { s with flash := s.flash.erase 0 flashSize }
  | .writeEnable => { s with flash := s.flash.setLatch true }
  | .writeDisable => { s with flash := s.flash.setLatch false }
  | .unrecognised c =>
    { s with
      flash := { s.flash with cells := Memory.setAll s.flash.cells (Config.unrecognisedCells s.draws c t.data)
                              latch := Config.unrecognisedLatch s.draws c t.data }
      draws := s.draws + 1 }
  | .incomplete => s
  | .read => s
  | .fastRead => s
  | .readStatus => s
  | .readId => s

/-- The command is a program or erase (R7). -/
def LaneCommand.isWrite : LaneCommand → Bool
  | .pageProgram => true
  | .sectorErase => true
  | .blockErase => true
  | .chipErase => true
  | _ => false

/-- A forwarded program or erase ends: the flash takes it (R3), the shadow is cleared (R9), the write is counted (R13),
the watches count it (R114), and a profile header it reached is forgotten (R170). -/
def State.endForwardedWrite (s : State) (t : Txn) : State :=
  let s1 := { s.flashTakes t with shadow := false }
  let s2 := (s1.charge (s.windowOf t.judgedAddr) CounterSet.addWrite).countWatches t
  if t.command = .chipErase then s2 else s2.forgetProfile t.judgedAddr

/-- The condition of a withheld command (R8, R11). -/
def Txn.withheldReport (t : Txn) (sector : Option Nat) : Report :=
  { cls := if t.occupied then .collision else .laneRefused, address := sector,
    command := if t.command = .chipErase then t.command.byte else none }

/-- A withheld program or erase ends (R8 steps 4 and 5). -/
def State.endWithheld (s : State) (t : Txn) (w : Window) (sector : Option Nat) : State :=
  ((s.charge w CounterSet.addWithheld).countWatches t).raise (t.withheldReport sector)

/-- An aperture program ends and is taken as a record (R8, R28, R114). It is counted and watched before its record is taken,
so an accepted RESET_SESSION leaves its own program uncounted: R114 gives this order for the watches, and for the counters
it is the model's (log 39). -/
def State.endRecord (s : State) (t : Txn) : State :=
  ((s.charge .aperture CounterSet.addWrite).countWatches t).takeProgram (t.addr % 256) t.data

/-- A READ or FAST READ ends: counted (R13), watched (R114), and reported if a byte was filled (R11). -/
def State.endRead (s : State) (t : Txn) : State :=
  let s1 := (s.charge (s.windowOf t.addr) CounterSet.addRead).countWatches t
  match t.firstFilled with
  | some a => s1.raise { cls := .collision, address := some (sectorOf a) }
  | none => s1

/-- A transaction ends by U_CS deasserting, whatever its command. A WRITE ENABLE or WRITE DISABLE that began inside an
occupied period and ends after it changes the shadow alone: R11 leaves the flash to the restore, which has then been made
(R10), and no rule says that the flash follows. DESIGN CHOICE, unsafe: its latch stays as the restore left it (log 48). -/
def State.endTxn (s : State) (t : Txn) : State :=
  match t.command, t.treatment with
  | .incomplete, _ => s
  | .read, _ => s.endRead t
  | .fastRead, _ => s.endRead t
  | .writeEnable, .forwarded => { s.flashTakes t with shadow := true }
  | .writeEnable, _ => { s with shadow := true }
  | .writeDisable, .forwarded => { s.flashTakes t with shadow := false }
  | .writeDisable, _ => { s with shadow := false }
  | .readStatus, _ => s
  | .readId, .forwarded => s
  | .readId, _ => s.raise { cls := .collision, command := t.command.byte }
  | .unrecognised _, .forwarded => s.flashTakes t
  | .unrecognised _, _ => s.raise { cls := .laneRefused, command := t.command.byte }
  | _, .forwarded => s.endForwardedWrite t
  | _, .withheld w x => s.endWithheld t w x
  | _, .record => s.endRecord t
  | _, _ => s

/-- U_CS deasserts (R1): the panel read hold is released, with the publish that waited for it (R45, R78), and the transaction
ends. -/
def State.deselect (s : State) : State :=
  match s.upstream with
  | none => s
  | some t =>
    if t.ignored then { s with upstream := none }
    else State.endTxn (State.releasePanel { s with upstream := none }) t

/-! ## A lane command -/

/-- The transaction in progress is one of a command. -/
def State.carries (s : State) (c : LaneCommand) : Bool :=
  match s.upstream with
  | some t => decide (t.command = c)
  | none => false

/-- The part of a transaction that a lane command stands for (log 1). A select needs a lane with no transaction in
progress; further bytes and a deselect need one of the same command (log 2). `bytes` passes the command's bytes. -/
def State.lane (s : State) (sp : Span) (c : LaneCommand) (a : Nat) (bytes : State → State) : State :=
  match sp with
  | .whole => if s.upstream.isNone then (bytes (s.select c a)).deselect else s
  | .opens => if s.upstream.isNone then bytes (s.select c a) else s
  | .more => if s.carries c then bytes s else s
  | .closes => if s.carries c then (bytes s).deselect else s

/-- The command bytes of the table of R2. -/
def recognisedBytes : List Byte := commandTable.map Prod.fst

/-- TRANSACTION_DROPPED (R1). -/
def execTransactionDropped (span : Span) (s : State) : Host.Outcome State Fault Refusal :=
  .next (s.lane span .incomplete 0 id).settle

/-- READ (R6). -/
def execRead (span : Span) (addr : Address) (count : Nat) (s : State) : Host.Outcome State Fault Refusal :=
  .next (s.lane span .read addr.toNat (fun x => x.serveBytes count)).settle

/-- FAST_READ (R2). -/
def execFastRead (span : Span) (addr : Address) (count : Nat) (s : State) : Host.Outcome State Fault Refusal :=
  .next (s.lane span .fastRead addr.toNat (fun x => x.serveBytes count)).settle

/-- PAGE_PROGRAM (R7). -/
def execPageProgram (span : Span) (addr : Address) (data : List Byte) (s : State) : Host.Outcome State Fault Refusal :=
  .next (s.lane span .pageProgram addr.toNat (fun x => x.takeData data)).settle

/-- SECTOR_ERASE (R7). -/
def execSectorErase (span : Span) (addr : Address) (s : State) : Host.Outcome State Fault Refusal :=
  .next (s.lane span .sectorErase addr.toNat id).settle

/-- BLOCK_ERASE (R7). -/
def execBlockErase (span : Span) (addr : Address) (s : State) : Host.Outcome State Fault Refusal :=
  .next (s.lane span .blockErase addr.toNat id).settle

/-- CHIP_ERASE (R7). -/
def execChipErase (span : Span) (s : State) : Host.Outcome State Fault Refusal :=
  .next (s.lane span .chipErase 0 id).settle

/-- WRITE_ENABLE (R9). -/
def execWriteEnable (span : Span) (s : State) : Host.Outcome State Fault Refusal :=
  .next (s.lane span .writeEnable 0 id).settle

/-- WRITE_DISABLE (R9). -/
def execWriteDisable (span : Span) (s : State) : Host.Outcome State Fault Refusal :=
  .next (s.lane span .writeDisable 0 id).settle

/-- READ_STATUS (R2, R11). -/
def execReadStatus (span : Span) (count busyFor : Nat) (s : State) : Host.Outcome State Fault Refusal :=
  .next (s.lane span .readStatus 0 (fun x => x.statusBytes count busyFor)).settle

/-- READ_ID (R2, R11). -/
def execReadId (span : Span) (count : Nat) (s : State) : Host.Outcome State Fault Refusal :=
  .next (s.lane span .readId 0 (fun x => x.idBytes count)).settle

/-- UNRECOGNISED_COMMAND (R4). A byte of the table of R2 is no unrecognised command (log 2). -/
def execUnrecognisedCommand (span : Span) (command : Byte) (data : List Byte) (s : State) :
    Host.Outcome State Fault Refusal :=
  .next (match commandOf command with
    | .unrecognised b => s.lane span (.unrecognised b) 0 (fun x => x.unknownBytes data)
    | _ => s).settle

/-! ## The command of a transaction's bytes (R1, R2) -/

/-- The three address bytes, most significant first (R1). -/
def addressOf (hi mid lo : Byte) : Address := hi ++ mid ++ lo

/-- The command row for a whole transaction from the bytes the system controller sent: the command byte picks the command
(R2), an address follows most significant byte first (R1), a FAST READ sends one dummy byte more (R2), and a transaction
that ends before its command and address are complete is dropped (R1). Each byte clocked after these reads or carries one
byte. `busyFor` is READ STATUS's operand. R1 and R2 say nothing of further bytes after the address of a SECTOR ERASE or BLOCK
ERASE, or after the command byte of a CHIP ERASE, WRITE ENABLE or WRITE DISABLE: DESIGN CHOICE, unsafe: they are dropped, and
the command is taken all the same (log 44). -/
def transactionOf (sent : List Byte) (busyFor : Nat) : Instr :=
  match sent with
  | [] => .transactionDropped .whole
  | c :: rest =>
    match commandOf c, rest with
    | .read, hi :: mid :: lo :: clocked => .read .whole (addressOf hi mid lo) clocked.length
    | .fastRead, hi :: mid :: lo :: clocked => .fastRead .whole (addressOf hi mid lo) (clocked.length - 1)
    | .pageProgram, hi :: mid :: lo :: data => .pageProgram .whole (addressOf hi mid lo) data
    | .sectorErase, hi :: mid :: lo :: _ => .sectorErase .whole (addressOf hi mid lo)
    | .blockErase, hi :: mid :: lo :: _ => .blockErase .whole (addressOf hi mid lo)
    | .chipErase, _ => .chipErase .whole
    | .writeEnable, _ => .writeEnable .whole
    | .writeDisable, _ => .writeDisable .whole
    | .readStatus, clocked => .readStatus .whole clocked.length busyFor
    | .readId, clocked => .readId .whole clocked.length
    | .unrecognised b, data => .unrecognisedCommand .whole b data
    | _, _ => .transactionDropped .whole

end Sys2Proof.Machine
end

