-- ==== Sys2Proof/Machine/Sequencer.lean ====
section
/-! DEFINITION. The Flash Sequencer: how a job takes its steps, and the commands SEQUENCER_STEP_BEGIN, READ_STEP_COMPLETE, OCCUPIED_PERIOD_END, PFW_ASSERT and PFW_DEASSERT (09, 10, 11, 12). -/

namespace Sys2Proof.Machine

/-! ## What a read step's bytes are for -/

/-- A KEY_STORE job verifying the slot it programmed without an erase, under the closed flag: it makes no repeat (R166). -/
def State.repeatForbidden (s : State) (a : Active) (w : SectorWrite) : Bool :=
  decide (a.job.kind = .keyStore) && decide (a.stage = .work) && !w.erased && s.closedFlag

/-- A verify's bytes judged: the sector passes, is repeated once, or the job fails (R126). -/
def State.judgeVerify (s : State) (l : Layout) (a : Active) (w : SectorWrite) (bytes : List Byte) (rest : List Step) : State :=
  if w.passes l bytes a.data.aside then s.proceed l a rest
  else if w.second || s.repeatForbidden a w then s.failJob a w.sector
  else if w.erased then s.proceed l a (({ w with second := true }).steps l ++ rest)
  else s.beginRewrite l a { sector := w.sector, splice := some (w.addr, w.bytes), scrub := false, second := true } rest

/-- The buffer of a rewrite is whole: the repairs and the owner's content go into it and the sector's writing is planned from
it, or a SCRUB with nothing to correct ends (R129 steps 2 to 4, R132). -/
def State.planRewrite (s : State) (l : Layout) (a : Active) (rw : Rewrite) (rest : List Step) : State :=
  let b := s.uniformityBlocks
  if rw.scrub && !rw.corrects l b s.seq.buffer a.data.aside then s.endJob a .done 0
  else
    let w := rw.write l b s.seq.buffer a.data.aside
    State.proceed { s with seq := { s.seq with buffer := w.bytes } } l a (w.steps l ++ rest)

/-- Every byte is 0xFF. -/
def allBlank (bytes : List Byte) : Bool := bytes.all (fun b => b == erasedByte)

/-- The target slot was read: the record is written there, or the append turns to the next slot (R138 steps 3 and 4). -/
def State.judgeTarget (s : State) (l : Layout) (a : Active) (bytes : List Byte) : State :=
  if allBlank bytes then
    let t := a.data.target
    let w := embeddedWrite (ringSectorAddr l t) a.data.ringErased (ringSlotAddr l t)
      (embedBlock (a.data.record.getD CommitRecord.base).data)
    s.proceed l a (w.body l)
  else s.probeSlotOfRing l a ((a.data.target + 1) % 128)

/-- A key slot expected blank was read: its pages are programmed, or its sector is rewritten, which the closed flag
forbids (R162, R166). -/
def State.judgeSlotRead (s : State) (l : Layout) (a : Active) (bytes : List Byte) : State :=
  let addr := keySlotAddr l a.job.slot
  let content := (a.data.key.map Prod.snd).getD []
  if allBlank bytes then s.proceed l a ((embeddedWrite (sectorOf addr) false addr content).body l)
  else if s.closedFlag then s.failJob a (sectorOf addr)
  else s.beginRewrite l a { sector := sectorOf addr, splice := some (addr, content), scrub := false, second := false } []

/-- The reason of a PROFILE_INVALID ending, and that ending (R172). -/
def State.refuseProfile (s : State) (a : Active) (reason : Nat) : State :=
  State.endJob { s with region := { s.region with reason := reason } } a .profileInvalid 0

/-- A profile header was read (R172 steps 1 to 4). -/
def State.judgeHeader (s : State) (l : Layout) (a : Active) (bytes : List Byte) : State :=
  let s1 := s.setDirectory a.job.slot (profileHeader bytes)
  match profileHeader bytes with
  | none => s1.refuseProfile a 1
  | some h =>
    if s.session.publishSeen && decide (h.scale ≠ s.scale) then s1.refuseProfile a 2
    else s1.startAppend l { a with data := { a.data with header := some h } }

/-! ## SCAN (R130, R131) -/

/-- The tally takes a run of corrections, each in its sector, with the DEGRADED conditions that fall due (R121). -/
def State.tallyAll (s : State) : List Nat → State
  | [] => s
  | x :: t =>
    let r := tallyCorrection s.seq.tally x
    let s1 := { s with seq := { s.seq with tally := r.1 } }
    State.tallyAll (if r.2 then s1.raise { cls := .degraded, address := some x } else s1) t

/-- The findings of a sector with more decodes; `blank` when a BLANK among them is a finding to report. -/
def Findings.add (f : Findings) (ds : List Decode) (blank : Bool) : Findings :=
  { corrected := f.corrected || ds.any Decode.corrected
    uncorrectable := f.uncorrectable || ds.any (fun d => decide (d = .uncorrectable))
    poisoned := f.poisoned || ds.any (fun d => decide (d = .poisoned))
    blank := f.blank || blank }

/-- The conditions a sector's findings call for (R131). -/
def Findings.reports (f : Findings) (sector : Nat) : List Report :=
  (if f.corrected then [{ cls := .storeCorrected, address := some sector }] else [])
    ++ (if f.uncorrectable then [{ cls := .storeUncorrected, address := some sector }] else [])
    ++ (if f.poisoned then [{ cls := .storeUncorrected, address := some sector, indirect := true }] else [])
    ++ (if f.blank then [{ cls := .storeUncorrected, address := some sector }] else [])

/-- A SCRUB for the sector is waiting (R131). -/
def State.scrubWaits (s : State) (sector : Nat) : Bool :=
  s.seq.waiting.any (fun j => decide (j.kind = .scrub) && decide (j.sector = sector))

/-- A SCRUB queued for a corrected sector, where R131 allows it. -/
def State.queueScrub (s : State) (sector : Nat) : State :=
  if s.mode = .commissioning ∧ s.scrubWaits sector = false ∧ s.queueFull = false then
    s.queueJob { kind := .scrub, tag := 0, slot := 0, sector := sector }
  else s

/-- A sector's report at its last block: the conditions, and the SCRUB where the sector may be scrubbed (R131). -/
def State.reportSector (s : State) (sector : Nat) (f : Findings) (scrub : Bool) : State :=
  let s1 := s.raiseAll (f.reports sector)
  if f.corrected && scrub then s1.queueScrub sector else s1

/-- The job's findings cleared or carried on, before its next step. -/
def Active.withFindings (a : Active) (f : Findings) (check : Bool) : Active :=
  { a with data := { a.data with found := f, checkFound := check } }

/-- The corrections of a run of decodes, each charged to one sector. -/
def correctionsIn (sector : Nat) (ds : List Decode) : List Nat :=
  (ds.filter Decode.corrected).map (fun _ => sector)

/-- SCAN has read a key slot (R130, R131, R156). -/
def State.scannedSlot (s : State) (l : Layout) (a : Active) (slot : Nat) (bytes : List Byte) (rest : List Step) : State :=
  let ds := (blocksOf bytes).map decodeEmbedded
  let sector := sectorOf (keySlotAddr l slot)
  let f := a.data.found.add ds
    (ds.any (fun d => decide (d = .blank)) && !ds.all (fun d => decide (d = .blank)))
  let s1 := (s.tallyAll (correctionsIn sector ds)).judgeKey slot (blocksOf bytes)
  if slot % 8 = 7 then
    (s1.reportSector sector f (!s.closedFlag)).proceed l (a.withFindings Findings.none a.data.checkFound) rest
  else s1.proceed l (a.withFindings f a.data.checkFound) rest

/-- SCAN has read a ring sector (R130, R131). -/
def State.scannedRing (s : State) (l : Layout) (a : Active) (i : Nat) (bytes : List Byte) (rest : List Step) : State :=
  let ds := (blocksOf bytes).map decodeEmbedded
  let sector := l.ring + 4096 * i
  ((s.tallyAll (correctionsIn sector ds)).reportSector sector (Findings.none.add ds false) false).proceed l a rest

/-- The sector a PANEL block's correction is charged to (R120). -/
def panelCharge (l : Layout) (sector : Nat) (d : Decode) : Nat := if d = .checkOnly then l.panelCheck else sector

/-- SCAN has read a PANEL sector; the check table's findings are reported after the last one (R120, R130, R131). R131 fixes no
order of the SCRUB jobs of the last PANEL sector and of PANEL_CHECK, which fall due together: DESIGN CHOICE, unsafe: the PANEL
sector's is queued first, so with one place left PANEL_CHECK's is the one not queued (log 51). -/
def State.scannedPanel (s : State) (l : Layout) (a : Active) (i : Nat) (bytes : List Byte) (rest : List Step) : State :=
  let ds := (blocksOf bytes).zipIdx.map (fun p => decodeBlock p.1 (slice a.data.aside (4 * (64 * i + p.2)) 4))
  let sector := l.panel + 4096 * i
  let f := Findings.none.add (ds.filter (fun d => decide (d ≠ .checkOnly))) (ds.any (fun d => decide (d = .blank)))
  let check := a.data.checkFound || ds.any (fun d => decide (d = .checkOnly))
  let s1 := (s.tallyAll ((ds.filter Decode.corrected).map (panelCharge l sector))).reportSector sector f true
  let s2 := if rest.isEmpty && check then
      s1.reportSector l.panelCheck { Findings.none with corrected := true } true
    else s1
  s2.proceed l (a.withFindings Findings.none check) rest

/-! ## A read step completes (R125) -/

/-- Bytes kept aside by a read (R129 step 2). -/
def Active.keepAside (a : Active) (append : Bool) (bytes : List Byte) : Active :=
  { a with data := { a.data with aside := (if append then a.data.aside else []) ++ bytes } }

/-- The bytes of a read step put to their use; these steps follow it. -/
def State.useBytes (s : State) (l : Layout) (a : Active) (u : Use) (bytes : List Byte) (rest : List Step) : State :=
  match u with
  | .loadPage => State.proceed { s with seq := { s.seq with buffer := s.seq.buffer ++ bytes } } l a rest
  | .aside append => s.proceed l (a.keepAside append bytes) rest
  | .plan true rw => State.planRewrite { s with seq := { s.seq with buffer := s.seq.buffer ++ bytes } } l a rw rest
  | .plan false rw => s.planRewrite l (a.keepAside true bytes) rw rest
  | .verify w => s.judgeVerify l a w bytes rest
  | .probeTarget => s.judgeTarget l a bytes
  | .probeSlot => s.judgeSlotRead l a bytes
  | .header => s.judgeHeader l a bytes
  | .scanSlot k => s.scannedSlot l a k bytes rest
  | .scanRing i => s.scannedRing l a i bytes rest
  | .scanPanel i => s.scannedPanel l a i bytes rest

/-- The flash's bytes as a read finds them: as held, but for those it answers otherwise (log 6). -/
def State.flashRead (s : State) (misread : List Host.Cell) (addr len : Nat) : List Byte :=
  Memory.read (Memory.setAll s.flash.cells misread) addr len

/-- A read step of the job in progress completes (R124, R125); where the job ends with it, the next one starts (R122). -/
def State.readDone (s : State) (l : Layout) (a : Active) (busy : Bool) (misread : List Host.Cell) : State :=
  match a.phase, a.todo with
  | .polling, _ =>
    if busy && s.flash.op.isSome then s.withActive { a with phase := .waiting }
    else State.withActive { s with flash := { s.flash with op := none } } { a with phase := .ready }
  | .reading, .read addr len u :: rest => (s.useBytes l a u (s.flashRead misread addr len) rest).startDue
  | _, _ => s

/-! ## A step begins (R124) -/

/-- The record is built when the append's first step begins (R137, log 20). -/
def State.withRecord (s : State) (a : Active) : Active :=
  if a.stage = .append ∧ a.data.record = none then { a with data := { a.data with record := some (s.buildRecord a) } }
  else a

/-- A step whose status read has found the flash not busy begins; PFW holds an erase or program (R124, R128). -/
def State.beginReady (s : State) (a : Active) : State :=
  match a.todo with
  | [] => s
  | .read _ _ _ :: _ => s.withActive { s.withRecord a with phase := .reading }
  | .erase x :: _ =>
    if s.pfw then s
    else
      State.withActive { s with flash := (s.flash.setLatch true).erase x 4096 } { s.withRecord a with phase := .occupied }
  | .program x bytes :: _ =>
    if s.pfw then s
    else
      State.withActive { s with flash := (s.flash.setLatch true).program x bytes }
        { s.withRecord a with phase := .occupied }

/-- The job's next step, or the status read before it, begins, while no upstream transaction is in progress (R124). -/
def State.beginStep (s : State) : State :=
  if s.laneBusy then s
  else match s.seq.active with
    | none => s
    | some a =>
      match a.phase with
      | .waiting => s.withActive { a with phase := .polling }
      | .ready => s.beginReady a
      | .polling => s
      | .reading => s
      | .occupied => s

/-- An occupied period ends: the restoring command brings the flash's latch to the shadow (R10), and the job goes on,
or ends and the next one starts (R122). -/
def State.endOccupied (s : State) (l : Layout) : State :=
  match s.seq.active with
  | none => s
  | some a =>
    if a.phase = .occupied then
      (State.proceed { s with flash := { s.flash with op := none, latch := s.shadow } } l a a.todo.tail).startDue
    else s

/-! ## The commands -/

/-- The effect of a sequencer event, which needs a valid layout: without one the part is in BYPASS and no job exists
(R133). -/
def State.withLayout (s : State) (f : State → Layout → State) : State :=
  match s.layout with
  | some l => f s l
  | none => s

/-- SEQUENCER_STEP_BEGIN (R124). -/
def execSequencerStepBegin (s : State) : Host.Outcome State Fault Refusal := .next s.beginStep.settle

/-- READ_STEP_COMPLETE (R125). -/
def execReadStepComplete (busy : Bool) (misread : List Host.Cell) (s : State) : Host.Outcome State Fault Refusal :=
  .next (s.withLayout (fun x l =>
    match x.seq.active with
    | some a => x.readDone l a busy misread
    | none => x)).settle

/-- OCCUPIED_PERIOD_END (R10). -/
def execOccupiedPeriodEnd (s : State) : Host.Outcome State Fault Refusal :=
  .next (s.withLayout (fun x l => x.endOccupied l)).settle

/-- PFW_ASSERT (R128, R181). -/
def execPfwAssert (s : State) : Host.Outcome State Fault Refusal := .next s.pfwRise.settle

/-- PFW deasserts: the WARNING is withdrawn, and a PAUSED job begins the step it held at (R128, R181). -/
def State.pfwFall (s : State) : State :=
  if s.pfw then
    let s1 := { s with pfw := false, conds := { s.conds with records := withdrawWarning s.conds.records } }
    match s.seq.active with
    | some a => if s.jobPaused ∧ a.phase = .ready ∧ s.laneBusy = false then s1.beginReady a else s1
    | none => s1
  else s

/-- PFW_DEASSERT (R128, R181). -/
def execPfwDeassert (s : State) : Host.Outcome State Fault Refusal := .next s.pfwFall.settle

end Sys2Proof.Machine
end

