-- ==== Sys2Proof/Machine/Resume.lean ====
section
/-! DEFINITION. Resume: the grid rebuilt from the park image or from PANEL at power-on (10 §10.8). -/

namespace Sys2Proof.Machine

/-- What resume gives: the grid, and the conditions the reading queues. -/
structure Resumed where
  grid : Grid
  reports : List Report
deriving DecidableEq, Repr

/-- The data of a block with trustworthy data, with any repair. -/
def trustedData (block : List Byte) : Option (List Byte) :=
  if (decodeEmbedded block).trusted then some (embeddedData block) else none

/-- The embedded block `i` of an area. -/
def areaBlock (m : Memory) (base i : Nat) : List Byte := Memory.read m (base + 64 * i) 64

/-- A code with its mark: the code and a clear mark, or 0 and a set one (R149, R151). -/
def codeOrMark : Option Int → Int × Bool
  | some c => (c, false)
  | none => (0, true)

/-- A STORE_UNCORRECTED report for an address. -/
def uncorrected (addr : Nat) : Report := { cls := .storeUncorrected, address := some addr }

/-! ## The park image (R148, R149) -/

/-- The region scale of a record, 256 without the region valid flag (R148). -/
def CommitRecord.scale (r : CommitRecord) : Nat := if r.regionValid then r.regionScale else 256

/-- The park image's header agrees with the latest record (R148). -/
def parkHeaderSound (r : CommitRecord) (d : List Byte) : Bool :=
  decide (fieldAt d 0 4 = r.parkImage) && decide (fieldAt d 4 4 = r.parkGen)
    && decide (1 ≤ byteAt d 8 ∧ byteAt d 8 ≤ 128) && decide (1 ≤ byteAt d 9 ∧ byteAt d 9 ≤ 72)
    && decide (byteAt d 10 = 8 ∨ byteAt d 10 = 6) && decide (byteAt d 11 ≤ 3) && decide (fieldAt d 12 2 = r.scale)

/-- A plane restored from the plane block (R149). -/
def restoredPlane (d : List Byte) (p : Plane) : Option PlaneRecord :=
  if byteAt d (16 * p.index) = 1 then planeFieldsAt d (16 * p.index + 1) else none

/-- Zone-plane `k` from its code block and its map block (R149). -/
def parkZonePlane (codes maps : List (Option (List Byte))) (k : Nat) : Int × Bool :=
  codeOrMark
    (match codes.getD (k / 60) none, maps.getD (k / 480) none with
      | some c, some m =>
        if (byteAt m (k % 480 / 8)).testBit (k % 8) then none else some (signedByte (c.getD (k % 60) 0))
      | _, _ => none)

/-- The sectors of an area that hold an untrusted block, in address order (R149). -/
def untrustedSectors (base : Nat) (blocks : List (Option (List Byte))) : List Nat :=
  ((List.range (ceilDiv blocks.length 64)).filter (fun i => (slice blocks (64 * i) 64).any Option.isNone)).map
    (fun i => base + 4096 * i)

/-- The grid of an accepted park image (R149, R152). -/
def parkGrid (r : CommitRecord) (m : Memory) (base : Nat) (h planes : List Byte) : Resumed :=
  let n := 3 * (byteAt h 8 * byteAt h 9)
  let codes := (List.range (ceilDiv n 60)).map (fun i => trustedData (areaBlock m base (2 + i)))
  let maps := (List.range (ceilDiv n 480)).map (fun i => trustedData (areaBlock m base (2 + ceilDiv n 60 + i)))
  let zps := (List.range n).map (parkZonePlane codes maps)
  { grid := { Grid.empty with
      geometry := some { cols := byteAt h 8, rows := byteAt h 9 }
      codes := zps.map Prod.fst, marks := zps.map Prod.snd
      low := restoredPlane planes .low, mid := restoredPlane planes .mid, high := restoredPlane planes .high
      width := byteAt h 10, shift := byteAt h 11, generation := r.parkGen }
    reports := (untrustedSectors base ([some h, some planes] ++ codes ++ maps)).map uncorrected }

/-- The park image read: accepted, or rejected (R148). -/
def readPark (r : CommitRecord) (m : Memory) (base : Nat) : Option Resumed :=
  match trustedData (areaBlock m base 0), trustedData (areaBlock m base 1) with
  | some h, some planes => if parkHeaderSound r h then some (parkGrid r m base h planes) else none
  | _, _ => none

/-! ## PANEL (R150, R151) -/

/-- PANEL block `i` with its decode against its table entry. -/
def panelBlock (m : Memory) (l : Layout) (i : Nat) : List Byte × Decode :=
  let data := Memory.read m (l.panel + 64 * i) 64
  let d := decodeBlock data (Memory.read m (l.panelCheck + 4 * i) 4)
  (repairData data d, d)

/-- PANEL's header agrees with the latest record (R150). -/
def panelHeaderSound (r : CommitRecord) (d : List Byte) : Bool :=
  decide (byteAt d 0 = 0x5A ∧ byteAt d 1 = 0xC3 ∧ byteAt d 2 = 1 ∧ byteAt d 3 = 3)
    && decide (byteAt d 4 = r.cols ∧ byteAt d 5 = r.rows ∧ byteAt d 6 = r.width ∧ byteAt d 7 = r.shift)
    && decide (fieldAt d 8 4 = r.uniGen) && decide (fieldAt d 18 4 = r.uniLength)

/-- The data of a block that has trustworthy data. -/
def vouched (b : List Byte × Decode) : Option (List Byte) := if b.2.trusted then some b.1 else none

/-- The byte at a PANEL offset, 0 in a block without trustworthy data. -/
def panelByte (blocks : List (Option (List Byte))) (o : Nat) : Nat :=
  match blocks.getD (o / 64) none with
  | some d => byteAt d (o % 64)
  | none => 0

/-- The presented code of index `k` in PANEL's bytes (R105, R106). -/
def panelPresented (width : Nat) (blocks : List (Option (List Byte))) (k : Nat) : Int :=
  if width = 6 then
    let b := 32 + 3 * (k / 4)
    let v := panelByte blocks b + 256 * panelByte blocks (b + 1) + 65536 * panelByte blocks (b + 2)
    (BitVec.ofNat 6 (v / 2 ^ (6 * (k % 4)))).toInt
  else signedByte (BitVec.ofNat 8 (panelByte blocks (32 + k)))

/-- A code clamped to −128..127 (R151). -/
def clampByte (c : Int) : Int := if 127 < c then 127 else if c < -128 then -128 else c

/-- Zone-plane `k` from PANEL (R151). -/
def panelZonePlane (width shift : Nat) (blocks : List (Option (List Byte))) (k : Nat) : Int × Bool :=
  codeOrMark
    (if (codeOffsets width k).all (fun o => (blocks.getD (o / 64) none).isSome) then
      some (clampByte (panelPresented width blocks k * (2 ^ shift : Nat)))
    else none)

/-- The conditions of PANEL's sectors, in address order (R151). -/
def panelReports (l : Layout) (ds : List Decode) : List Report :=
  ((List.range (ceilDiv ds.length 64)).map (fun i =>
    let here := slice ds (64 * i) 64
    (if here.any (fun d => decide (d = .poisoned)) then
      [{ cls := .storeUncorrected, address := some (l.panel + 4096 * i), indirect := true }] else [])
    ++ (if here.any (fun d => decide (d = .uncorrectable) || decide (d = .blank)) then
      [uncorrected (l.panel + 4096 * i)] else []))).flatten

/-- PANEL read: accepted, or rejected (R150, R151). -/
def readPanel (r : CommitRecord) (m : Memory) (l : Layout) : Option Resumed :=
  let b0 := panelBlock m l 0
  if r.uniformitySound && decide (b0.2 ≠ .blank) && decide (b0.2 ≠ .uncorrectable) && panelHeaderSound r b0.1 then
    let bs := (List.range (ceilDiv r.uniLength 64)).map (panelBlock m l)
    let zps := (List.range (3 * (r.cols * r.rows))).map (panelZonePlane r.width r.shift (bs.map vouched))
    some
      { grid := { Grid.empty with
          geometry := some { cols := r.cols, rows := r.rows }
          codes := zps.map Prod.fst, marks := zps.map Prod.snd, width := r.width, shift := r.shift
          generation := r.uniGen }
        reports := panelReports l (bs.map Prod.snd) }
  else none

/-! ## The choice of the source (R147, R152) -/

/-- The park image is tried (R147 step 1). -/
def CommitRecord.triesPark (r : CommitRecord) : Bool :=
  r.parkValid && (decide (r.uniGen ≤ r.parkGen) || !r.uniformityValid)

/-- PANEL as resume's source, or none (R147 steps 2 and 3). -/
def resumePanel (r : CommitRecord) (m : Memory) (l : Layout) : Resumed :=
  if r.uniformityValid then
    match readPanel r m l with
    | some x => x
    | none => { grid := Grid.empty, reports := [uncorrected l.panel] }
  else { grid := Grid.empty, reports := [] }

/-- Resume from the latest record (R147). -/
def resumeFrom (r : CommitRecord) (m : Memory) (l : Layout) : Resumed :=
  if r.triesPark then
    match readPark r m l.park with
    | some x => x
    | none =>
      let x := resumePanel r m l
      { x with reports := uncorrected l.park :: x.reports }
  else resumePanel r m l

/-- The generation mark at the end of resume (R44). -/
def State.resumeMark (s : State) : Nat := max s.grid.generation (max (s.uniGen?.getD 0) (s.parkGen?.getD 0))

/-- Resume in COMMISSIONING mode: the conditions queued, the grid set, its generation mark, and a class map of 15 (R44,
R88, R152). -/
def State.resume (s : State) (l : Layout) (m : Memory) : State :=
  match s.latest with
  | none => s
  | some x =>
    let r := resumeFrom x.record m l
    let s1 := { s.raiseAll r.reports with grid := r.grid }
    { s1 with grid := { s1.grid with genMark := s1.resumeMark }, classMap := List.replicate s1.grid.zones none }

end Sys2Proof.Machine
end

