-- ==== Sys2Proof/Machine/Startup.lean ====
section
/-! DEFINITION. Power and reset: the start-up load, power loss, the lane reset and its release (01, 02). -/

namespace Sys2Proof.Machine

/-! ## The start-up load (R17) -/

/-- PFW asserts during a step of the load, if it does: the WARNING is taken as the step begins (R17, R181, log 34). -/
def State.pfwAt (s : State) (i : PowerOnInput) (n : Nat) : State := if i.pfwStep = some n then s.pfwRise else s

/-- The 128 slots of the ring, each with its valid record (R135). -/
def ringSlots (m : Memory) (l : Layout) : List (Nat × Option CommitRecord) :=
  (List.range 128).map (fun i => (i, ringRecord (Memory.read m (ringSlotAddr l i) 64)))

/-- The mode decided in step 4 (R18). -/
def decideMode (lineMode : Bool) (latest : Option Latest) : Mode :=
  match latest with
  | none => .commissioning
  | some x => if lineMode || !x.record.closed then .commissioning else .normal

/-- Step 5: the grid resumed in COMMISSIONING mode (R17). -/
def State.loadGrid (s : State) (l : Layout) (m : Memory) : State :=
  if s.mode = .commissioning then s.resume l m else s

/-- Block 0 of every key slot from a slot on, the table set from it (R155). -/
def State.loadKeys (s : State) (l : Layout) (m : Memory) : List Nat → State
  | [] => s
  | k :: t => State.loadKeys (s.loadKey k (Memory.read m (keySlotAddr l k) 64)) l m t

/-- The region a record selects (R169). -/
def CommitRecord.selection (r : CommitRecord) : Option Selection :=
  if r.regionValid = true ∧ r.regionSlot ≤ 7 ∧ 128 ≤ r.regionScale ∧ r.regionScale ≤ 256 then
    some { slot := r.regionSlot, id := r.profileId, scale := r.regionScale }
  else none

/-- The selected slot's header read: its classes known, or not (R169). Of a valid header whose id or scale is not the record's,
R169 leaves the directory entry unknown and R170 sets it valid: DESIGN CHOICE, unsafe: the model follows R169 (log 53). -/
def State.loadClasses (s : State) (l : Layout) (m : Memory) (sel : Selection) : State :=
  let block := Memory.read m (profileAddr l sel.slot) 64
  let unknown := { s with region := { s.region with selected := some sel, classes := none } }
  match profileHeader block with
  | some h =>
    if h.id = sel.id ∧ h.scale = sel.scale then
      State.setDirectory { s with region := { s.region with selected := some sel, classes := some h.classes } }
        sel.slot (some h)
    else unknown
  | none => if (decodeEmbedded block).trusted then unknown else unknown.raise (uncorrected (profileAddr l sel.slot))

/-- Step 7: the region set from the latest record (R169). -/
def State.loadRegion (s : State) (l : Layout) (m : Memory) : State :=
  match s.latest.bind (fun x => x.record.selection) with
  | some sel => s.loadClasses l m sel
  | none => s

/-- Step 8: SYS_HOLD is released; a select held across the release stays ignored (R1, R15). What U_SO then reads in it R1 does
not say: DESIGN CHOICE, unsafe: the model knows no command of it, so it serves no byte there (log 49). -/
def State.releaseHold (s : State) (selectHeld : Bool) : State :=
  { s with
    sysHold := false
    upstream := if selectHeld then
        some { ignored := true, command := .incomplete, addr := 0, occupied := false, treatment := .answered,
               remapSlot := none, served := 0, data := [], firstFilled := none, overlayGen := none, pages := [] }
      else none }

/-- The state at power-on: the flash's bytes stay, its latch and operation are gone, and everything else is at its
power-on value (R17, R53, R67, R88, R97, R115, R133, R167, R183, log 12). -/
def State.powerUp (s : State) (lineMode : Bool) : State :=
  { State.reset with
    lineMode := lineMode, flash := { cells := s.flash.cells, latch := false, op := none }, draws := s.draws,
    pending := s.pending }

/-- Step 2 with an invalid descriptor: BYPASS, a DESCRIPTOR condition, and the end of the load (R17). -/
def State.loadBypass (s : State) (i : PowerOnInput) : State :=
  (s.raise { cls := .descriptor }).releaseHold i.selectHeld

/-- A DESCRIPTOR condition for a CORRECTED descriptor (R17 step 2). -/
def State.noteDescriptor (s : State) (block : List Byte) : State :=
  if (decodeEmbedded block).corrected then s.raise { cls := .descriptor, address := some descriptorBase } else s

/-- Steps 3 to 9 of the load with a valid layout, after step 2's report (R17). Each report carries the mode that step 4
decides (R178), so the mode stands in the state from step 2 on. -/
def State.loadRest (s : State) (i : PowerOnInput) (l : Layout) (m : Memory) : State :=
  let s3 := (s.pfwAt i 3).pfwAt i 4
  let s5 := (s3.pfwAt i 5).loadGrid l m
  let s6 := (s5.pfwAt i 6).loadKeys l m (List.range 16)
  let s7 := (s6.pfwAt i 7).loadRegion l m
  let s8 := (s7.pfwAt i 8).releaseHold i.selectHeld
  ((s8.pfwAt i 9).queueJob (plainJob .scan 0)).startDue

/-- The start-up load (R17). -/
def State.powerOn (s : State) (i : PowerOnInput) : State :=
  let m := Memory.setAll s.flash.cells i.misread
  let block := Memory.read m descriptorBase 64
  let s0 := s.powerUp i.lineMode
  match descriptorLayout block with
  | none => ((s0.pfwAt i 1).pfwAt i 2).loadBypass i
  | some l =>
    let latest := latestOf (ringSlots m l)
    let s1 := { s0 with layout := some l, latest := latest, mode := decideMode i.lineMode latest }
    (((s1.pfwAt i 1).pfwAt i 2).noteDescriptor block).loadRest i l m

/-- POWER_ON (R17). -/
def execPowerOn (input : PowerOnInput) (s : State) : Host.Outcome State Fault Refusal := .next (s.powerOn input).settle

/-! ## Power loss (R3, R133) -/

/-- Power is lost: everything in the part is gone, and the flash keeps what it held, but for an operation cut by the
loss (R3, R133). -/
def State.powerLoss (s : State) (reached : List Host.Cell) : State :=
  { State.reset with
    flash := { cells := s.flash.cut reached, latch := false, op := none }, draws := s.draws, pending := s.pending }

/-- POWER_LOSS (R133). -/
def execPowerLoss (reached : List Host.Cell) (s : State) : Host.Outcome State Fault Refusal :=
  .next (s.powerLoss reached).settle

/-! ## The lane reset (R14) -/

/-- A transaction dropped by a lane reset: the flash may take a forwarded command, as far as it was sent (R14, log 8),
and a profile header it reached is forgotten (R170). -/
def State.dropTxn (s : State) (taken : Bool) : State :=
  match s.upstream with
  | none => s
  | some t =>
    if t.ignored = false ∧ t.treatment = .forwarded then
      let s1 := if taken then s.flashTakes t else s
      if t.command.isWrite = true ∧ t.command ≠ .chipErase then s1.forgetProfile t.judgedAddr else s1
    else s

/-- A frame buffer at a lane reset (R65). -/
def Frame.laneReset (f : Frame) : Frame := if f.state = .filling then Frame.empty else f

/-- The lane reset (R14, R65); a publish that waited only for the panel read hold takes place at it (R45, R88). R14 does not
say what bytes clocked on in the dropped transaction meet while U_CS stays asserted: DESIGN CHOICE, unsafe: there is no
transaction any more, so nothing is served or taken for them, also once SYS_RST is released, and a new select is taken at
once (log 45). -/
def State.laneReset (s : State) (taken : Bool) : State :=
  let s1 := (s.dropTxn taken).cutRead
  State.releasePanel { s1 with
    sysRst := true
    upstream := none
    shadow := false
    frame0 := s1.frame0.laneReset
    frame1 := s1.frame1.laneReset
    flash := if s.occupied then s1.flash else s1.flash.setLatch false }

/-- LANE_RESET (R14). SYS_RST acts once SYS_HOLD is released (R15); a line already asserted has no edge (log 2). -/
def execLaneReset (taken : Bool) (s : State) : Host.Outcome State Fault Refusal :=
  .next (if s.sysRst then s else if s.sysHold then { s with sysRst := true } else s.laneReset taken).settle

/-- SYS_RST_RELEASE (R1). -/
def execSysRstRelease (s : State) : Host.Outcome State Fault Refusal := .next { s with sysRst := false }.settle

end Sys2Proof.Machine
end

