-- ==== Sys2Proof/Machine/Dispatch.lean ====
section
/-! DEFINITION. The dispatch: one arm for each command, a direct call of its meaning. -/

namespace Sys2Proof.Machine

/-- The effect of a command on everything but the queue. -/
def exec (i : Instr) (s : State) : Host.Outcome State Fault Refusal :=
  match i with
  | .powerOn input => Sys2Proof.Machine.execPowerOn input s
  | .powerLoss reached => Sys2Proof.Machine.execPowerLoss reached s
  | .laneReset taken => Sys2Proof.Machine.execLaneReset taken s
  | .pfwAssert => Sys2Proof.Machine.execPfwAssert s
  | .pfwDeassert => Sys2Proof.Machine.execPfwDeassert s
  | .lineClockTick => Sys2Proof.Machine.execLineClockTick s
  | .idleTimerExpiry => Sys2Proof.Machine.execIdleTimerExpiry s
  | .transactionDropped span => Sys2Proof.Machine.execTransactionDropped span s
  | .read span addr count => Sys2Proof.Machine.execRead span addr count s
  | .fastRead span addr count => Sys2Proof.Machine.execFastRead span addr count s
  | .pageProgram span addr data => Sys2Proof.Machine.execPageProgram span addr data s
  | .sectorErase span addr => Sys2Proof.Machine.execSectorErase span addr s
  | .blockErase span addr => Sys2Proof.Machine.execBlockErase span addr s
  | .chipErase span => Sys2Proof.Machine.execChipErase span s
  | .writeEnable span => Sys2Proof.Machine.execWriteEnable span s
  | .writeDisable span => Sys2Proof.Machine.execWriteDisable span s
  | .readStatus span count busyFor => Sys2Proof.Machine.execReadStatus span count busyFor s
  | .readId span count => Sys2Proof.Machine.execReadId span count s
  | .unrecognisedCommand span command data => Sys2Proof.Machine.execUnrecognisedCommand span command data s
  | .recordFraming offset data => Sys2Proof.Machine.execRecordFraming offset data s
  | .recordUnknownKind kind tag body => Sys2Proof.Machine.execRecordUnknownKind kind tag body s
  | .sessionOpen tag body => Sys2Proof.Machine.execSessionOpen tag body s
  | .resetSession tag body => Sys2Proof.Machine.execResetSession tag body s
  | .mask tag body => Sys2Proof.Machine.execMask tag body s
  | .retire tag body => Sys2Proof.Machine.execRetire tag body s
  | .geometry tag body => Sys2Proof.Machine.execGeometry tag body s
  | .format tag body => Sys2Proof.Machine.execFormat tag body s
  | .plane tag body => Sys2Proof.Machine.execPlane tag body s
  | .frameOpen tag body => Sys2Proof.Machine.execFrameOpen tag body s
  | .zones tag body => Sys2Proof.Machine.execZones tag body s
  | .frameClose tag body => Sys2Proof.Machine.execFrameClose tag body s
  | .frameAbandon tag body => Sys2Proof.Machine.execFrameAbandon tag body s
  | .rollback tag body => Sys2Proof.Machine.execRollback tag body s
  | .watch tag body => Sys2Proof.Machine.execWatch tag body s
  | .commit tag body => Sys2Proof.Machine.execCommit tag body s
  | .park tag body => Sys2Proof.Machine.execPark tag body s
  | .scan tag body => Sys2Proof.Machine.execScan tag body s
  | .keyStage tag body => Sys2Proof.Machine.execKeyStage tag body s
  | .keyMore tag body => Sys2Proof.Machine.execKeyMore tag body s
  | .keyStore tag body => Sys2Proof.Machine.execKeyStore tag body s
  | .keyErase tag body => Sys2Proof.Machine.execKeyErase tag body s
  | .keyUnstage tag body => Sys2Proof.Machine.execKeyUnstage tag body s
  | .region tag body => Sys2Proof.Machine.execRegion tag body s
  | .closeOut tag body => Sys2Proof.Machine.execCloseOut tag body s
  | .solveTakeFrame => Sys2Proof.Machine.execSolveTakeFrame s
  | .computingEnd => Sys2Proof.Machine.execComputingEnd s
  | .publish => Sys2Proof.Machine.execPublish s
  | .jobStart => Sys2Proof.Machine.execJobStart s
  | .sequencerStepBegin => Sys2Proof.Machine.execSequencerStepBegin s
  | .readStepComplete busy misread => Sys2Proof.Machine.execReadStepComplete busy misread s
  | .occupiedPeriodEnd => Sys2Proof.Machine.execOccupiedPeriodEnd s
  | .sysRstRelease => Sys2Proof.Machine.execSysRstRelease s
  | .lampFlashTimer => Sys2Proof.Machine.execLampFlashTimer s

end Sys2Proof.Machine
end

