-- ==== Sys2Proof/WellFormed.lean ====
section
/-! DEFINITION. When a command's operands can occur. `exec` gives every command a meaning, well-formed or not (log 32). -/

namespace Sys2Proof

open Sys2Proof.Machine

/-- Cells of the flash: every address below 2^24. -/
def cellsInRange (cs : List Host.Cell) : Bool := cs.all (fun c => decide (c.1 < flashSize))

/-- The longest body a record can carry: 256 bytes less its framing (R28, R30). -/
def bodyFits (body : List Byte) : Bool := decide (body.length ≤ 252)

/-- The operands of a command can occur. -/
def Instr.wellFormed : Instr → Bool
  | .powerOn i => cellsInRange i.misread && (match i.pfwStep with | some n => decide (1 ≤ n ∧ n ≤ 9) | none => true)
  | .powerLoss reached => cellsInRange reached
  | .laneReset _ => true
  | .pfwAssert => true
  | .pfwDeassert => true
  | .lineClockTick => true
  | .idleTimerExpiry => true
  | .transactionDropped _ => true
  | .read _ _ _ => true
  | .fastRead _ _ _ => true
  | .pageProgram _ _ _ => true
  | .sectorErase _ _ => true
  | .blockErase _ _ => true
  | .chipErase _ => true
  | .writeEnable _ => true
  | .writeDisable _ => true
  | .readStatus _ count busyFor => decide (busyFor ≤ count)
  | .readId _ _ => true
  | .unrecognisedCommand _ command _ => !recognisedBytes.contains command
  | .recordFraming offset data => (match frameRecord offset.toNat data with | .inl _ => false | .inr _ => true)
  | .recordUnknownKind kind _ body => (kindOf kind).isNone && bodyFits body
  | .sessionOpen _ body => bodyFits body
  | .resetSession _ body => bodyFits body
  | .mask _ body => bodyFits body
  | .retire _ body => bodyFits body
  | .geometry _ body => bodyFits body
  | .format _ body => bodyFits body
  | .plane _ body => bodyFits body
  | .frameOpen _ body => bodyFits body
  | .zones _ body => bodyFits body
  | .frameClose _ body => bodyFits body
  | .frameAbandon _ body => bodyFits body
  | .rollback _ body => bodyFits body
  | .watch _ body => bodyFits body
  | .commit _ body => bodyFits body
  | .park _ body => bodyFits body
  | .scan _ body => bodyFits body
  | .keyStage _ body => bodyFits body
  | .keyMore _ body => bodyFits body
  | .keyStore _ body => bodyFits body
  | .keyErase _ body => bodyFits body
  | .keyUnstage _ body => bodyFits body
  | .region _ body => bodyFits body
  | .closeOut _ body => bodyFits body
  | .solveTakeFrame => true
  | .computingEnd => true
  | .publish => true
  | .jobStart => true
  | .sequencerStepBegin => true
  | .readStepComplete _ misread => cellsInRange misread
  | .occupiedPeriodEnd => true
  | .sysRstRelease => true
  | .lampFlashTimer => true

end Sys2Proof
end

