-- ==== Sys2Proof/Safety.lean ====
section
/-! DEFINITION. What counts as a sound state and a safe run: the relations between fields of State that the manual's
chapters keep, and the words the statements use. -/

namespace Sys2Proof.Machine

/-! ## Words the statements use -/

/-- The next state of an outcome is a given one. -/
def Answers (o : Host.Outcome State Fault Refusal) (t : State) : Prop := o = .next t

/-- The command of a record of a kind. -/
def Kind.command (k : Kind) (tag : Byte) (body : List Byte) : Instr :=
  match k with
  | .sessionOpen => .sessionOpen tag body
  | .resetSession => .resetSession tag body
  | .mask => .mask tag body
  | .retire => .retire tag body
  | .geometry => .geometry tag body
  | .format => .format tag body
  | .plane => .plane tag body
  | .frameOpen => .frameOpen tag body
  | .zones => .zones tag body
  | .frameClose => .frameClose tag body
  | .frameAbandon => .frameAbandon tag body
  | .rollback => .rollback tag body
  | .watch => .watch tag body
  | .commit => .commit tag body
  | .park => .park tag body
  | .scan => .scan tag body
  | .keyStage => .keyStage tag body
  | .keyMore => .keyMore tag body
  | .keyStore => .keyStore tag body
  | .keyErase => .keyErase tag body
  | .keyUnstage => .keyUnstage tag body
  | .region => .region tag body
  | .closeOut => .closeOut tag body

/-- A record reaches its owner: one can reach the part, and the session is OPEN (R31). -/
def State.inOpen (s : State) : Bool := s.recordsReach && decide (s.session.state = .opened)

/-- A record answered: its tag and result written, the count raised (R33), a job it queued started where none is in
progress (R122), the lines and the timer judged afresh. -/
def State.answered (s : State) (tag : Byte) (r : Result) : State := (s.concludeRecord tag r).settle

/-- The upstream lane is served and no transaction is in progress (R1), and so the panel read hold is free: it is held
inside a served transaction alone (R45), which every step keeps (`State.lockSound`). -/
def State.laneFree (s : State) : Bool := !s.sysHold && !s.sysRst && s.upstream.isNone && !s.grid.hold

/-- A transaction has passed: these bytes were served, none is in progress, and a sequencer read was cut (R12). -/
def State.passed (s : State) (served : List Byte) : State := { s.cutRead with upstream := none, served := served }

/-- The byte a source gives outside an occupied period (R6). -/
def State.sourceByte (s : State) : Source → Byte
  | .flash x => Memory.get s.flash.cells (x % flashSize)
  | .overlay o => s.grid.overlayByte o
  | .page n o => (s.responsePage n).getD o 0

/-- The byte a source gives inside an occupied period (R11). -/
def State.sourceByteOccupied (s : State) : Source → Byte
  | .flash _ => erasedByte
  | .overlay o => s.grid.overlayByte o
  | .page n o => (s.responsePage n).getD o 0

/-- The source of byte `i` of a read (R6). -/
def State.sourceAt (s : State) (addr i : Nat) : Source :=
  s.source (s.region.selected.map (fun r => r.slot)) ((addr + i) % flashSize)

/-- A source is the overlay. -/
def Source.isOverlay : Source → Bool
  | .flash _ => false
  | .overlay _ => true
  | .page _ _ => false

/-- A source is the flash. -/
def Source.isFlash : Source → Bool
  | .flash _ => true
  | .overlay _ => false
  | .page _ _ => false

/-- The command changes the part's power (R17, R133). -/
def powers : Instr → Bool
  | .powerOn _ => true
  | .powerLoss _ => true
  | _ => false

/-- The command makes the sequencer write the flash, or is a loss of power: SEQUENCER_STEP_BEGIN, PFW_DEASSERT (R128),
POWER_LOSS (R3). -/
def writesDownstream : Instr → Bool
  | .sequencerStepBegin => true
  | .pfwDeassert => true
  | .powerLoss _ => true
  | _ => false

/-! ## The flash -/

/-- The flash's memory has its canonical form. -/
def State.flashSound (s : State) : Prop := Memory.wf s.flash.cells = true

/-! ## The grid lock and the panel read hold (R45, R46) -/

/-- The lock the job in progress holds: its own kind for COMMIT_GRID and PARK, else none (R46). -/
def State.lockOfJob (s : State) : Option JobKind :=
  match s.seq.active with
  | some a => if a.job.kind = .commitGrid ∨ a.job.kind = .park then some a.job.kind else none
  | none => none

/-- The upstream transaction in progress is served, not ignored. -/
def State.served? (s : State) : Bool :=
  match s.upstream with
  | some t => !t.ignored
  | none => false

/-- The grid lock is held exactly by a COMMIT_GRID or PARK job in progress, and the panel read hold only inside a
transaction (R45, R46). -/
def State.lockSound (s : State) : Prop := s.grid.lock = s.lockOfJob ∧ (s.grid.hold = true → s.served? = true)

/-! ## The Condition Queue (R179, R182) -/

/-- Two records have the same class and merge key. -/
def CondRecord.sameKey (c d : CondRecord) : Bool :=
  decide (c.cls = d.cls) && decide (mergeKey c.cls c.address c.slot = mergeKey d.cls d.address d.slot)

/-- Never more than 16 records, no two of one class and merge key, at most 8 known faults, and only maskable classes
masked. -/
def State.condsSound (s : State) : Prop :=
  s.conds.records.length ≤ 16 ∧ s.conds.records.Pairwise (fun c d => c.sameKey d = false)
    ∧ s.conds.known.length ≤ 8 ∧ s.conds.mask &&& ~~~maskable = 0 ∧ s.conds.counter < 65536

/-! ## Bounded tables (R13, R34, R114, R121, R122) -/

/-- The queues and tables stay within their sizes, and the counts within their widths. -/
def State.tablesSound (s : State) : Prop :=
  s.seq.waiting.length ≤ 4 ∧ s.seq.tally.length ≤ 16 ∧ s.counters.length = 10 ∧ s.watches.length = 4
    ∧ s.intake.outcomes.length = 9 ∧ s.intake.recordCount < 65536 ∧ s.intake.closeOutIndex ≤ 7
    ∧ (∀ c ∈ s.counters, c.reads ≤ 65535 ∧ c.writes ≤ 65535 ∧ c.withheld ≤ 65535)
    ∧ (∀ w ∈ s.watches, w.count ≤ 65535) ∧ (∀ e ∈ s.intake.outcomes, e.count < 256)
    ∧ (∀ e ∈ s.seq.tally, e.count ≤ 255)

/-! ## The grid, the frames and the history (04, 05, 07) -/

/-- A code lies in −128..127. -/
def codeInRange (c : Int) : Prop := -128 ≤ c ∧ c ≤ 127

/-- The grid's own shape (R39, R40, R44, R50). -/
def Grid.sound (g : Grid) : Prop :=
  (match g.geometry with
    | none => True
    | some q => 1 ≤ q.cols ∧ q.cols ≤ 128 ∧ 1 ≤ q.rows ∧ q.rows ≤ 72)
    ∧ g.codes.length = 3 * g.zones ∧ g.marks.length = 3 * g.zones ∧ (∀ c ∈ g.codes, codeInRange c)
    ∧ (g.width = 8 ∨ g.width = 6) ∧ g.shift ≤ 3 ∧ g.generation ≤ g.genMark ∧ g.genMark ≤ genMax

/-- A frame that is not FREE lies inside the grid, a slot to a zone (R54, R55). -/
def Frame.sound (f : Frame) (g : Grid) : Prop :=
  f.state = .free ∨ (g.holdsRect f.rect = true ∧ f.slots.length = f.rect.w * f.rect.h)

/-- A history entry lies inside the grid and holds a code and a mark for each zone (R89). -/
def HistoryEntry.sound (e : HistoryEntry) (g : Grid) : Prop :=
  g.holdsRect e.rect = true ∧ e.codes.length = e.rect.w * e.rect.h ∧ e.marks.length = e.rect.w * e.rect.h
    ∧ ∀ c ∈ e.codes, codeInRange c

/-- The Correction History keeps its bounds (R89, R90, R91). -/
def History.sound (h : History) (g : Grid) : Prop :=
  h.stack.length ≤ 8 ∧ payloadTotal h.stack ≤ 18432 ∧ h.truncated ≤ 65535 ∧ ∀ e ∈ h.stack, e.sound g

/-- The grid, both frames, the history and the class map agree. -/
def State.gridSound (s : State) : Prop :=
  s.grid.sound ∧ s.frame0.sound s.grid ∧ s.frame1.sound s.grid ∧ s.history.sound s.grid
    ∧ s.classMap.length = s.grid.zones

/-! ## The Solve Engine and its frame (R54, R63, R68) -/

/-- The engine holds a SOLVING frame exactly while it is not IDLE; at most one buffer is SOLVING, one FILLING and one
QUEUED; only a SOLVING buffer has the discard mark; and a frame waits to publish only while the grid is not free, since it
publishes as soon as it is (R78). -/
def State.engineSound (s : State) : Prop :=
  (s.engine.state = .idle ↔ s.anyFrame .solving = false)
    ∧ ¬(s.frame0.state = .solving ∧ s.frame1.state = .solving)
    ∧ ¬(s.frame0.state = .filling ∧ s.frame1.state = .filling)
    ∧ ¬(s.frame0.state = .queued ∧ s.frame1.state = .queued)
    ∧ (s.frame0.discard = true → s.frame0.state = .solving) ∧ (s.frame1.discard = true → s.frame1.state = .solving)
    ∧ (s.engine.state = .publishWait → s.gridFree = false)

/-! ## Modes (R19, R67, R88, R133) -/

/-- The transaction in progress is a record's. -/
def State.carriesRecord (s : State) : Bool :=
  match s.upstream with
  | some t => decide (t.treatment = .record)
  | none => false

/-- Outside COMMISSIONING mode there is no session, no frame, no grid and no record, and every job is a SCAN; in BYPASS
there is no layout and no job at all. No job waits while none is in progress (R122). The idle timer runs in OPEN alone. -/
def State.modeSound (s : State) : Prop :=
  (s.mode ≠ .commissioning →
    s.session.state = .dormant ∧ s.frame0.state = .free ∧ s.frame1.state = .free ∧ s.engine.state = .idle
      ∧ s.grid.geometry = none ∧ s.grid.lock = none ∧ s.carriesRecord = false
      ∧ (∀ j ∈ s.seq.waiting, j.kind = .scan) ∧ (∀ a ∈ s.seq.active, a.job.kind = .scan))
    ∧ (s.mode = .bypass → s.seq.active = none ∧ s.seq.waiting = [])
    ∧ (s.mode = .bypass ↔ s.layout = none) ∧ (s.seq.active = none → s.seq.waiting = [])
    ∧ (s.session.state ≠ .opened → s.session.timer = .stopped)

/-! ## The law of key classes (R154) -/

/-- The key jobs in progress and waiting. -/
def State.keyJobs (s : State) : List Job :=
  ((match s.seq.active with | some a => [a.job] | none => []) ++ s.seq.waiting).filter
    (fun j => decide (j.kind = .keyStore) || decide (j.kind = .keyErase))

/-- No two slots that are PRESENT or PENDING hold the same class (R154). -/
def State.keyLaw (s : State) : Prop :=
  ∀ i j c, i < 16 → j < 16 → i ≠ j → 1 ≤ c → (s.keyEntry i).holds c = true → (s.keyEntry j).holds c = false

/-- A key job and its slot's entry agree: the entry is PENDING for that job, and a store's entry has the class that is
staged, or that the job has built (R154, R161, R162, R164). -/
def State.keyJobSound (s : State) (j : Job) : Prop :=
  (s.keyEntry j.slot).state = .pending ∧ (s.keyEntry j.slot).erasing = decide (j.kind = .keyErase)
    ∧ (j.kind = .keyStore → s.staging.state = .held ∧ s.staging.slot = j.slot ∧ (s.keyEntry j.slot).cls = s.staging.cls)

/-- The key a store in progress has built has its entry's class. -/
def State.builtSound (s : State) : Prop :=
  ∀ a, s.seq.active = some a → a.job.kind = .keyStore →
    ∃ e bytes, a.data.key = some (e, bytes) ∧ e.cls = (s.keyEntry a.job.slot).cls

/-- The key law, with what keeps it: sixteen entries, a staged slot in range, each key job PENDING in a slot of its own. -/
def State.keysSound (s : State) : Prop :=
  s.keys.length = 16 ∧ s.keyLaw ∧ s.staging.slot < 16 ∧ (∀ j ∈ s.keyJobs, s.keyJobSound j)
    ∧ s.keyJobs.Pairwise (fun i j => i.slot ≠ j.slot) ∧ s.builtSound

/-! ## The record in the making (R136, R138) -/

/-- A commit record carries on from another: its generation is not lower and none of the flags closed, uniformity
valid, park valid and region valid is lost (R136, R138). The time-valid flag is the append's own (R136). -/
def CommitRecord.carriesOn (r old : CommitRecord) : Prop :=
  old.ringGen ≤ r.ringGen ∧ (old.closed = true → r.closed = true)
    ∧ (old.uniformityValid = true → r.uniformityValid = true) ∧ (old.parkValid = true → r.parkValid = true)
    ∧ (old.regionValid = true → r.regionValid = true)

/-- The record the job in progress has built carries on from the latest one. -/
def State.recordSound (s : State) : Prop :=
  ∀ a r x, s.seq.active = some a → a.data.record = some r → s.latest = some x → r.carriesOn x.record

/-! ## Guarded areas (R5, R7) -/

/-- A window whose programs and erases are withheld in NORMAL and COMMISSIONING modes, other than PROFILES and REMAP. -/
def Window.guardedArea : Window → Bool
  | .descriptor => true
  | .panel => true
  | .panelCheck => true
  | .keys => true
  | .park => true
  | .ring => true
  | _ => false

/-- An address lies in a guarded area, in a mode that guards it. -/
def State.guards (s : State) (a : Nat) : Bool :=
  decide (s.mode ≠ .bypass) && (match s.layout with | some l => (l.windowOf a).guardedArea | none => false)

/-- A forwarded command can change the flash at an address (R3). -/
def Txn.reaches (t : Txn) (a : Nat) : Bool :=
  match t.command with
  | .pageProgram => decide (a / 256 = t.addr / 256)
  | .sectorErase => decide (a / 4096 = t.addr / 4096)
  | .blockErase => decide (a / 65536 = t.addr / 65536)
  | .chipErase => true
  | .unrecognised _ => true
  | _ => false

/-- The transaction in progress, if it is forwarded, reaches no guarded area; the layout is a valid one. -/
def State.lanesSound (s : State) : Prop :=
  (∀ l, s.layout = some l → l.valid = true)
    ∧ ∀ t, s.upstream = some t → t.addr < flashSize ∧
        (t.treatment = .forwarded → ∀ a, a < flashSize → s.guards a = true → t.reaches a = false)

/-! ## All of it -/

/-- A sound state. -/
def State.sound (s : State) : Prop :=
  s.flashSound ∧ s.lockSound ∧ s.condsSound ∧ s.tablesSound ∧ s.gridSound ∧ s.engineSound ∧ s.modeSound ∧ s.keysSound
    ∧ s.recordSound ∧ s.lanesSound

end Sys2Proof.Machine
end

