-- ==== Sys2Proof/Certificates/Slice0/Obligations.lean ====
section
/-! DEFINITION. The statements for the provers. Each docstring names the rules of spec/ a statement rests on, and the log
entry where a clause is the model's own choice. A record command's statements speak of a state in which a record can reach
its owner (`State.inOpen`); what happens in every other state is said once, for every kind, by
`RecordsOutsideOpenAreRefused` and `ShortAndUnreachedRecordsAreJudgedFirst`. -/

open Sys2Proof Sys2Proof.Machine

/-! ## The machine -/

/-- A step is the front command's effect on the state with the queue's rest. The second clause, an empty queue idling, is
the model's choice (log 31). -/
def Obligations.StepRunsTheFrontCommand : Prop :=
  (∀ c rest s, s.pending = c :: rest → step s = exec c { s with pending := rest }) ∧
  (∀ s : State, s.pending = [] → step s = .next s)

/-- Every command answers a next state and leaves the queue of waiting commands as it stood (log 1, 2): the manual names
no event that stops the part. -/
def Obligations.EveryCommandCompletesAndKeepsTheQueue : Prop :=
  ∀ c s, ∃ t, exec c s = .next t ∧ t.pending = s.pending

/-- After every command ATTN is asserted exactly while an unmasked record is queued (R182). The lamp is released outside
COMMISSIONING mode and under SYS_HOLD, and else shows the first pattern that holds in the list of R26, with the durations
of its table: a stored duration that is not shorter than half the period gives way to the longest that is. A pattern that
changes starts lit where it lights the lamp at all (R26). The idle timer runs, with (10 × tens + ones) × prescale seconds,
in OPEN alone, while no job is in progress and no buffer is SOLVING, and not where both digits are 0 (R21). -/
def Obligations.LinesFollowTheState : Prop :=
  ∀ c s t, exec c s = .next t →
    (t.attn = true ↔ ∃ r ∈ t.conds.records, t.conds.mask.getLsbD r.cls.code = false) ∧
    (t.session.lampRate ≤ 3 → t.session.lampDuration ≤ 3 →
      let d := t.session.lampDuration
      t.lamp.pattern =
        (if t.sysHold = true ∨ t.mode ≠ .commissioning then .released
          else if t.attn = true then .flash 3 2
          else if t.session.state = .closed then .steady
          else if t.session.state = .lapsed then .flash 0 0
          else if t.session.state = .dormant then .off
          else if t.seq.active ≠ none then .flash 2 1
          else .flash t.session.lampRate
            (if t.session.lampRate = 3 then max 2 d else if t.session.lampRate = 2 then max 1 d else d))) ∧
    (t.lamp.pattern ≠ s.lamp.pattern → (t.lamp.lit = true ↔ t.lamp.pattern ≠ .released ∧ t.lamp.pattern ≠ .off)) ∧
    (
      let timeout := (10 * t.session.timeoutTens + t.session.timeoutOnes) * (if t.session.prescale = 0 then 1 else 10)
      t.session.timer =
        (if t.session.state ≠ .opened ∨ timeout = 0 then .stopped
          else if t.seq.active = none ∧ t.frame0.state ≠ .solving ∧ t.frame1.state ≠ .solving then .running timeout
          else .held))

/-- The state at power-on, before the load, has the values the manual gives (R9, R13, R14, R15, R20, R21, R24, R33, R34,
R43, R44, R46, R50, R54, R68, R91, R115, R121, R133, R157, R169, R178, R183). -/
def Obligations.PowerOnValues : Prop :=
  let s := State.reset
  s.sysHold = true ∧ s.shadow = false ∧ s.upstream = none ∧ s.counters = List.replicate 10 CounterSet.zero ∧
  s.intake.lastTag = 0 ∧ s.intake.lastResult = .accepted ∧ s.intake.recordCount = 0 ∧ s.intake.closeOutIndex = 0 ∧
  (∀ e ∈ s.intake.outcomes, e = OutcomeEntry.unused) ∧
  s.session.station = 0 ∧ s.session.day = 0 ∧ s.session.seconds = 0 ∧ s.session.timeValid = false ∧
  s.session.timer = .stopped ∧ s.session.timeout = 0 ∧ s.session.publishSeen = false ∧
  s.grid.geometry = none ∧ s.grid.width = 8 ∧ s.grid.shift = 0 ∧ s.grid.generation = 0 ∧ s.grid.genMark = 0 ∧
  s.grid.lock = none ∧ s.grid.hold = false ∧ s.frame0.state = .free ∧ s.frame1.state = .free ∧
  s.engine.state = .idle ∧ s.report = none ∧ s.history.stack = [] ∧ s.history.truncated = 0 ∧
  (∀ w ∈ s.watches, w = Watch.off) ∧ s.seq.active = none ∧ s.seq.waiting = [] ∧ s.seq.tally = [] ∧
  s.staging = Staging.idle ∧ s.region.selected = none ∧ s.region.reason = 0 ∧
  s.conds = { records := [], counter := 0, known := [], mask := 0 }

/-- The state at power-on is sound in every respect of Safety.lean. -/
def Obligations.PowerOnStateIsSound : Prop := State.sound State.reset

/-! ## Invariants every step keeps -/

/-- Every step keeps the flash's memory in its canonical form (R3; the form is the model's, log 5). -/
def Obligations.StepsKeepTheMemoryForm : Prop :=
  ∀ s t, s.flashSound → step s = .next t → t.flashSound

/-- The grid lock is held exactly by a COMMIT_GRID or PARK job in progress (R46), and the panel read hold only inside a
served transaction (R45); every step keeps this. -/
def Obligations.StepsKeepTheLockAndTheHold : Prop :=
  ∀ s t, s.lockSound → step s = .next t → t.lockSound

/-- Never two queued records of one class and merge key, never more than 16 records or 8 known faults, never an unmaskable
class masked (R179, R182); every step keeps this. -/
def Obligations.StepsKeepTheConditionQueueLaw : Prop :=
  ∀ s t, s.condsSound → step s = .next t → t.condsSound

/-- At most four jobs wait, the tally holds at most 16 entries, and every counter stays in its width (R13, R33, R34, R114,
R121, R122); every step keeps this. -/
def Obligations.StepsKeepTheTablesBounded : Prop :=
  ∀ s t, s.tablesSound → step s = .next t → t.tablesSound

/-- The grid's codes stay in −128..127, three for each zone; frames and history entries lie inside the grid; the history
keeps its bounds of 8 entries and 18 432 bytes; the generation never passes its mark (R39, R44, R80, R89, R90); every step
keeps this. -/
def Obligations.StepsKeepTheGridSound : Prop :=
  ∀ s t, s.gridSound → step s = .next t → t.gridSound

/-- The engine holds a SOLVING frame exactly while it is not IDLE; at most one buffer is SOLVING, one FILLING and one
QUEUED; and a frame waits to publish only while the grid lock or the panel read hold is held (R54, R63, R68, R78); every
step keeps this. That a frame closed while another is still QUEUED has the IDLE engine take the other one first is the
model's way to keep the order of closing (log 13). -/
def Obligations.StepsKeepTheEngineAndItsFrame : Prop :=
  ∀ s t, s.engineSound → step s = .next t → t.engineSound

/-- Outside COMMISSIONING mode no session, frame, grid or record comes to be, and SCAN is the one kind of job; in BYPASS
there is no job at all; and no job waits while none is in progress (R19, R67, R88, R122, R133); every step keeps this. -/
def Obligations.StepsKeepModesApart : Prop :=
  ∀ s t, s.modeSound → step s = .next t → t.modeSound

/-- No two key slots that are PRESENT or PENDING hold the same class (R154); every step keeps this, and with it that each
waiting or running key job has a slot of its own that is PENDING for it. -/
def Obligations.StepsKeepTheLawOfKeyClasses : Prop :=
  ∀ s t, s.keysSound → step s = .next t → t.keysSound

/-- No command but a change of power lowers the latest record's ring generation or clears one of its flags closed,
uniformity valid, park valid and region valid (R136, R138): each appended record carries on from the one before it. The
time-valid flag is no part of this: each append writes it from the clock (R136). -/
def Obligations.CommitRecordsCarryOn : Prop :=
  ∀ c s t, s.recordSound → exec c s = .next t →
    t.recordSound ∧
    (powers c = false → ∀ x, s.latest = some x → ∃ y, t.latest = some y ∧ y.record.carriesOn x.record)

/-- In NORMAL and COMMISSIONING modes no command of the system controller, and no command but a step of the sequencer's
own, changes a byte of DESCRIPTOR, PANEL, PANEL_CHECK, KEYS, PARK or RING (R5, R7, R8, R14). -/
def Obligations.GuardedAreasStand : Prop :=
  ∀ c s t, s.flashSound → s.lanesSound → exec c s = .next t →
    t.lanesSound ∧
    (writesDownstream c = false → ∀ a, a < flashSize → s.guards a = true →
      Memory.get t.flash.cells a = Memory.get s.flash.cells a)

/-- No read shows a byte of the staged key payload: two states that differ in it alone serve every READ and FAST READ
alike (R37, R157). -/
def Obligations.NoReadShowsTheStagedPayload : Prop :=
  ∀ (sp : Span) (a : Address) (n : Nat) (p : List Byte) (s : State),
    ∀ c ∈ [Instr.read sp a n, Instr.fastRead sp a n],
    ∃ t u, exec c s = .next t ∧ exec c { s with staging := { s.staging with payload := p } } = .next u ∧
      u.served = t.served

/-! ## Check blocks and flash formats -/

/-- A block read as written decodes GOOD; written poisoned it decodes POISONED; with one of its two check fields read
otherwise it decodes CORRECTED in its check field alone; and a block of 60 or 64 data bytes with one of them damaged
decodes CORRECTED with exactly that byte restored (R116, R117, R118, R119). -/
def Obligations.CheckBlocksDecodeAndRepair : Prop :=
  (∀ data : List Byte,
    decodeBlock data (checkOf data) = .good ∧ decodeBlock data (poisonedCheckOf data) = .poisoned ∧
    ∀ v, v < 65536 →
      (v % checkModulus ≠ checkA data → decodeBlock data (le 2 v ++ le 2 (checkB data)) = .checkOnly) ∧
      (v % checkModulus ≠ checkB data → decodeBlock data (le 2 (checkA data) ++ le 2 v) = .checkOnly)) ∧
  (∀ (data : List Byte) (i : Nat) (b : Byte), data.length = 60 ∨ data.length = 64 → i < data.length →
    data[i]? ≠ some b →
    decodeBlock (data.set i b) (checkOf data) = .repaired i (data.getD i 0) ∧
    repairData (data.set i b) (.repaired i (data.getD i 0)) = data)

/-- A commit record written into a ring slot reads back with every field (03 §3.6, R135, R136). -/
def Obligations.CommitRecordsReadBack : Prop :=
  ∀ r : CommitRecord,
    r.kind < 256 → r.station < 256 → r.ringGen < 2 ^ 32 → r.uniGen < 2 ^ 32 → r.uniLength < 2 ^ 32 → r.width < 256 →
    r.shift < 256 → r.cols < 256 → r.rows < 256 → r.poisoned < 65536 → r.parkGen < 2 ^ 32 → r.parkImage < 2 ^ 32 →
    r.regionSlot < 256 → r.profileId < 256 → r.regionScale < 65536 → r.keySet < 65536 → r.day < 65536 →
    r.seconds < 2 ^ 32 → r.unknown < 65536 →
    ringRecord (embedBlock r.data) = some r

/-- The key slot a KEY_STORE job builds reads back whole: each of its eight blocks decodes GOOD; their data bytes hold the
magic, the slot, the class, the station, the length and the stamp, then the payload, zero beyond its length, and zeros; and
the header is valid and gives the entry stored (R153, R163, 03 §3.6). -/
def Obligations.StoredKeysReadBack : Prop :=
  ∀ (slot : Nat) (e : KeyEntry) (payload : List Byte),
    slot < 16 → 1 ≤ e.cls → e.cls ≤ 15 → 16 ≤ e.length → e.length ≤ 448 → e.station < 256 → e.day < 65536 →
    e.seconds < 2 ^ 32 → payload.length = 448 →
    let bytes := keySlotBytes (keySlotData slot e payload)
    let data := ((List.range 8).map (fun j => embeddedData (slice bytes (64 * j) 64))).flatten
    bytes.length = 512 ∧ (∀ j, j < 8 → decodeEmbedded (slice bytes (64 * j) 64) = .good) ∧ data.length = 480 ∧
    byteAt data 0 = 0x4B ∧ byteAt data 1 = slot ∧ byteAt data 2 = e.cls ∧ byteAt data 3 = e.station ∧
    fieldAt data 4 2 = e.length ∧ fieldAt data 6 2 = e.day ∧ fieldAt data 8 4 = e.seconds ∧
    (∀ i, 12 ≤ i → i < 16 → byteAt data i = 0) ∧
    (∀ i, i < 448 → data.getD (16 + i) 0 = if i < e.length then payload.getD i 0 else 0) ∧
    (∀ i, 464 ≤ i → i < 480 → byteAt data i = 0) ∧
    keyHeader slot (decodeEmbedded (slice bytes 0 64)) (embeddedData (slice bytes 0 64)) =
      some { KeyEntry.empty with
        state := .present, cls := e.cls, length := e.length, station := e.station, day := e.day, seconds := e.seconds }

/-- A park image in flash gives back the grid it was made from: its geometry, format, codes, marks and planes, with no
condition (R144, R148, R149). A marked zone-plane holds the code 0 (R41). Resume from any record and flash: the park image is
tried as R147 gives and taken unless R148 rejects it, each zone-plane restored as R149 gives; else PANEL is taken where the
record names one that R150 does not reject, each code being P × 2^s clamped, and 0 with its mark set where a block that
carries it cannot be trusted (R151); else the grid stays empty (R147, R152). Each rejection, and each sector with a block
that cannot be trusted, has its STORE_UNCORRECTED, with INDIRECT for POISONED (R148, R149, R150, R151); that they come sector
by sector in address order is the model's choice (log 29). -/
def Obligations.ParkedGridsResume : Prop :=
  (∀ (g : Grid) (q : Geometry) (r : CommitRecord) (m : Memory) (base : Nat),
    g.sound → g.geometry = some q →
    (∀ k, k < g.codes.length → g.marks.getD k false = true → g.codes.getD k 0 = 0) →
    (∀ p x, g.planeRecord p = some x →
      planeFields x.gray x.target x.slope x.tolLo x.tolHi x.limit (match x.rounding with | .nearest => 0 | .towardZero => 1)
        = some x) →
    r.parkGen = g.generation → r.parkImage < 2 ^ 32 → r.scale < 65536 →
    Memory.read m base (g.parkImage r.parkImage r.scale).length = g.parkImage r.parkImage r.scale →
    readPark r m base = some { grid := { g with genMark := 0, lock := none, hold := false }, reports := [] }) ∧
  (∀ (r : CommitRecord) (m : Memory) (l : Layout),
    let x := resumeFrom r m l
    let lost := fun a => ({ cls := .storeUncorrected, address := some a } : Report)
    let block := fun k => Memory.read m (l.park + 64 * k) 64
    let ok := fun k => (decodeEmbedded (block k)).trusted
    let data := fun k => embeddedData (block k)
    let h := data 0
    let n := 3 * (byteAt h 8 * byteAt h 9)
    let map := fun k => 2 + (n + 59) / 60 + k / 480
    let blocks := 2 + (n + 59) / 60 + (n + 479) / 480
    let plane := fun (p : Plane) =>
      let d := data 1
      let o := 16 * p.index
      if byteAt d o = 1 then
        planeFields (fieldAt d (o + 1) 2) (fieldAt d (o + 3) 2) (fieldAt d (o + 5) 2) (fieldAt d (o + 7) 2)
          (fieldAt d (o + 9) 2) (byteAt d (o + 11)) (byteAt d (o + 12))
      else none
    let tried := r.parkValid && (decide (r.uniGen ≤ r.parkGen) || !r.uniformityValid)
    let park := tried = true ∧ ok 0 = true ∧ ok 1 = true ∧ fieldAt h 0 4 = r.parkImage ∧ fieldAt h 4 4 = r.parkGen ∧
      1 ≤ byteAt h 8 ∧ byteAt h 8 ≤ 128 ∧ 1 ≤ byteAt h 9 ∧ byteAt h 9 ≤ 72 ∧ (byteAt h 10 = 8 ∨ byteAt h 10 = 6) ∧
      byteAt h 11 ≤ 3 ∧ fieldAt h 12 2 = (if r.regionValid = true then r.regionScale else 256)
    let read := fun k => Memory.read m (l.panel + 64 * k) 64
    let decode := fun k => decodeBlock (read k) (Memory.read m (l.panelCheck + 4 * k) 4)
    let header := repairData (read 0) (decode 0)
    let byte := fun o => byteAt (repairData (read (o / 64)) (decode (o / 64))) (o % 64)
    let np := 3 * (r.cols * r.rows)
    let len := (r.uniLength + 63) / 64
    let panel := r.uniformityValid = true ∧ 1 ≤ r.cols ∧ r.cols ≤ 128 ∧ 1 ≤ r.rows ∧ r.rows ≤ 72 ∧
      (r.width = 8 ∨ r.width = 6) ∧ r.shift ≤ 3 ∧
      r.uniLength = (if r.width = 6 then 32 + 3 * ((np + 3) / 4) else 32 + np) ∧
      decode 0 ≠ .blank ∧ decode 0 ≠ .uncorrectable ∧ byteAt header 0 = 0x5A ∧ byteAt header 1 = 0xC3 ∧
      byteAt header 2 = 1 ∧ byteAt header 3 = 3 ∧ byteAt header 4 = r.cols ∧ byteAt header 5 = r.rows ∧
      byteAt header 6 = r.width ∧ byteAt header 7 = r.shift ∧ fieldAt header 8 4 = r.uniGen ∧
      fieldAt header 18 4 = r.uniLength
    let any := fun (i count : Nat) (bad : Nat → Bool) =>
      (List.range 64).any (fun j => decide (64 * i + j < count) && bad (64 * i + j))
    (park →
      x = {
        grid := { Grid.empty with
          geometry := some { cols := byteAt h 8, rows := byteAt h 9 }, codes := x.grid.codes, marks := x.grid.marks
          low := plane .low, mid := plane .mid, high := plane .high, width := byteAt h 10, shift := byteAt h 11
          generation := r.parkGen }
        reports := ((List.range ((blocks + 63) / 64)).filter (fun i => any i blocks (fun k => !ok k))).map
          (fun i => lost (l.park + 4096 * i)) } ∧
      x.grid.codes.length = n ∧ x.grid.marks.length = n ∧
      ∀ k, k < n →
        let good := ok (2 + k / 60) && ok (map k) && !(byteAt (data (map k)) (k % 480 / 8)).testBit (k % 8)
        x.grid.codes[k]? = some (if good = true then ((data (2 + k / 60)).getD (k % 60) 0).toInt else 0) ∧
        x.grid.marks[k]? = some (!good)) ∧
    (¬park → panel →
      x = {
        grid := { Grid.empty with
          geometry := some { cols := r.cols, rows := r.rows }, codes := x.grid.codes, marks := x.grid.marks
          width := r.width, shift := r.shift, generation := r.uniGen }
        reports := (if tried = true then [lost l.park] else []) ++
          (List.range ((len + 63) / 64)).flatMap (fun i =>
            (if any i len (fun k => decide (decode k = .poisoned)) = true then
              [{ lost (l.panel + 4096 * i) with indirect := true }] else []) ++
            (if any i len (fun k => decide (decode k = .uncorrectable ∨ decode k = .blank)) = true then
              [lost (l.panel + 4096 * i)] else [])) } ∧
      x.grid.codes.length = np ∧ x.grid.marks.length = np ∧
      ∀ k, k < np →
        let o := 32 + 3 * (k / 4)
        let first := if r.width = 6 then 32 + 6 * k / 8 else 32 + k
        let last := if r.width = 6 then 32 + (6 * k + 5) / 8 else 32 + k
        let good := (decode (first / 64)).trusted && (decode (last / 64)).trusted
        let p : Int := if r.width = 6 then
            (BitVec.ofNat 6 ((byte o + 256 * byte (o + 1) + 65536 * byte (o + 2)) / 64 ^ (k % 4))).toInt
          else (BitVec.ofNat 8 (byte (32 + k))).toInt
        x.grid.codes[k]? = some (if good = true then max (-128) (min 127 (p * 2 ^ r.shift)) else 0) ∧
        x.grid.marks[k]? = some (!good)) ∧
    (¬park → ¬panel →
      x = {
        grid := Grid.empty
        reports := (if tried = true then [lost l.park] else []) ++
          (if r.uniformityValid = true then [lost l.panel] else []) }))

/-! ## Power and lines -/

/-- POWER_ON with an invalid descriptor: BYPASS, one DESCRIPTOR condition without an address, behind a WARNING where PFW
asserts during step 1 or 2, SYS_HOLD released, a select held across the release ignored, and everything else at its power-on
value, but the flash's bytes as they stood (R1, R15, R16, R17, R18, R181). A descriptor block gives a layout exactly where it
decodes GOOD or CORRECTED with magic 0xE6 0x20, version 1 and size code 24, and each of the nine windows is aligned and
inside the 16 MiB and no two share an address; so one written with such bases, and any fill behind them, reads back as its
layout, and an untrusted block, or one of another magic, version or size, gives none (R16). That POWER_ON of a running part
acts as a whole power cycle, with an operation the flash has in progress counting as done, is the model's choice (log 12),
and so is the moment of a PFW edge during the load (log 34). -/
def Obligations.PowerOnWithAnInvalidDescriptor : Prop :=
  (∀ (i : PowerOnInput) (s : State),
    descriptorLayout (Memory.read (Memory.setAll s.flash.cells i.misread) descriptorBase 64) = none →
    let early := i.pfwStep = some 1 ∨ i.pfwStep = some 2
    ∃ t, exec (.powerOn i) s = .next t ∧
      t = { State.reset with
        sysHold := false, lineMode := i.lineMode, pfw := decide early, attn := true, upstream := t.upstream,
        conds := t.conds, flash := { cells := s.flash.cells, latch := false, op := none }, draws := s.draws,
        pending := s.pending } ∧
      (t.upstream = none ↔ i.selectHeld = false) ∧ (∀ x, t.upstream = some x → x.ignored = true) ∧
      t.conds.records.map (fun r => (r.cls, r.address, r.mode)) =
        (if early then [(.warning, none, .bypass)] else []) ++ [(.descriptor, none, .bypass)]) ∧
  (∀ (b : List Byte) (l : Layout),
    let d := embeddedData b
    let windows : List (Nat × Nat × Nat) := [(0xFFF000, 4096, 4096), (l.panel, 28672, 4096), (l.panelCheck, 4096, 4096),
      (l.aperture, 65536, 65536), (l.keys, 8192, 4096), (l.park, 40960, 4096), (l.ring, 8192, 4096),
      (l.profiles, 524288, 65536), (l.remap, 65536, 65536)]
    (l.valid = true ↔ (∀ w ∈ windows, w.1 % w.2.2 = 0 ∧ w.1 + w.2.1 ≤ 0x1000000) ∧
      windows.Pairwise (fun v w => v.1 + v.2.1 ≤ w.1 ∨ w.1 + w.2.1 ≤ v.1)) ∧
    (descriptorLayout b = some l ↔ (decodeEmbedded b).trusted = true ∧ byteAt d 0 = 0xE6 ∧ byteAt d 1 = 0x20 ∧
      byteAt d 2 = 1 ∧ byteAt d 3 = 24 ∧
      l = { panel := fieldAt d 4 3, panelCheck := fieldAt d 7 3, aperture := fieldAt d 10 3, keys := fieldAt d 13 3,
            park := fieldAt d 16 3, ring := fieldAt d 19 3, profiles := fieldAt d 22 3, remap := fieldAt d 25 3 } ∧
      (∀ w ∈ windows, w.1 % w.2.2 = 0 ∧ w.1 + w.2.1 ≤ 0x1000000) ∧
      windows.Pairwise (fun v w => v.1 + v.2.1 ≤ w.1 ∨ w.1 + w.2.1 ≤ v.1)) ∧
    ∀ fill : List Byte, fill.length = 32 → l.valid = true →
      descriptorLayout (embedBlock ([0xE6, 0x20, 1, 24] ++ le 3 l.panel ++ le 3 l.panelCheck ++ le 3 l.aperture ++ le 3 l.keys
        ++ le 3 l.park ++ le 3 l.ring ++ le 3 l.profiles ++ le 3 l.remap ++ fill)) = some l) ∧
  ∀ b : List Byte,
    let d := embeddedData b
    decodeEmbedded b = .blank ∨ decodeEmbedded b = .poisoned ∨ decodeEmbedded b = .uncorrectable ∨ byteAt d 0 ≠ 0xE6 ∨
      byteAt d 1 ≠ 0x20 ∨ byteAt d 2 ≠ 1 ∨ byteAt d 3 ≠ 24 → descriptorLayout b = none

/-- POWER_ON with a valid descriptor, one that meets R16's conditions: the layout of its bases taken (R16); the latest record
the valid one of the highest ring generation, the lower slot among equals (R135); the mode as R18 decides it; in
COMMISSIONING mode the grid and the conditions that resume gives (ParkedGridsResume), with the generation mark of R44 and a
class map of 15; each key slot's entry from its block 0 (R155); the region and its classes from the latest record (R169);
SYS_HOLD released, a select held across the release ignored (R1, R15); the first SCAN in progress at its first step, its
reads those of R130 in order, with no job waiting (R17, R122); and every other field at its power-on value, but the lines
that follow, the flash's bytes and the model's own fields (R17, R53, R67, R88, R97, R115, R133, R167, R183). That POWER_ON of
a running part acts as a whole power cycle, with an operation the flash has in progress counting as done, is the model's
choice (log 12), and so is that a valid header of another id or scale than the record's leaves the directory entry unknown
(log 53, R169 beside R170), and the order of the reports, with a WARNING before those of its step (log 29, 34). -/
def Obligations.PowerOnWithAValidDescriptor : Prop :=
  (∀ (b : List Byte) (l : Layout),
    let d := embeddedData b
    let windows : List (Nat × Nat × Nat) := [(0xFFF000, 4096, 4096), (l.panel, 28672, 4096), (l.panelCheck, 4096, 4096),
      (l.aperture, 65536, 65536), (l.keys, 8192, 4096), (l.park, 40960, 4096), (l.ring, 8192, 4096),
      (l.profiles, 524288, 65536), (l.remap, 65536, 65536)]
    (descriptorLayout b = some l ↔ (decodeEmbedded b).trusted = true ∧ byteAt d 0 = 0xE6 ∧ byteAt d 1 = 0x20 ∧
      byteAt d 2 = 1 ∧ byteAt d 3 = 24 ∧
      l = { panel := fieldAt d 4 3, panelCheck := fieldAt d 7 3, aperture := fieldAt d 10 3, keys := fieldAt d 13 3,
            park := fieldAt d 16 3, ring := fieldAt d 19 3, profiles := fieldAt d 22 3, remap := fieldAt d 25 3 } ∧
      (∀ w ∈ windows, w.1 % w.2.2 = 0 ∧ w.1 + w.2.1 ≤ 0x1000000) ∧
      windows.Pairwise (fun v w => v.1 + v.2.1 ≤ w.1 ∨ w.1 + w.2.1 ≤ v.1))) ∧
  ∀ (i : PowerOnInput) (s : State) (l : Layout),
    let m := Memory.setAll s.flash.cells i.misread
    let descriptor := Memory.read m descriptorBase 64
    let ring := fun k => ringRecord (Memory.read m (l.ring + 64 * k) 64)
    let profile := fun k => Memory.read m (l.profiles + 65536 * k) 64
    let warning := fun n => if i.pfwStep = some n then [({ cls := .warning } : Report)] else []
    let legal := fun r : CommitRecord =>
      r.regionValid = true ∧ r.regionSlot ≤ 7 ∧ 128 ≤ r.regionScale ∧ r.regionScale ≤ 256
    let sound := fun r : CommitRecord => r.uniformityValid = true ∧ 1 ≤ r.cols ∧ r.cols ≤ 128 ∧ 1 ≤ r.rows ∧ r.rows ≤ 72 ∧
      (r.width = 8 ∨ r.width = 6) ∧ r.shift ≤ 3 ∧
      r.uniLength = (if r.width = 6 then 32 + 3 * ((3 * (r.cols * r.rows) + 3) / 4) else 32 + 3 * (r.cols * r.rows))
    let areas := (List.range 16).map (fun k => Step.read (l.keys + 512 * k) 512 (.scanSlot k)) ++
      [.read l.ring 4096 (.scanRing 0), .read (l.ring + 4096) 4096 (.scanRing 1)]
    let panel := fun (blocks : Nat) => Step.read l.panelCheck (4 * blocks) (.aside false) ::
      (List.range ((64 * blocks + 4095) / 4096)).map (fun i =>
        .read (l.panel + 4096 * i) (min 4096 (64 * blocks - 4096 * i)) (.scanPanel i))
    descriptorLayout descriptor = some l →
    ∃ t a resumed, exec (.powerOn i) s = .next t ∧
      t = { State.reset with
        sysHold := false, pfw := t.pfw, lineMode := i.lineMode, attn := t.attn, lamp := t.lamp, mode := t.mode
        layout := some l, upstream := t.upstream, grid := t.grid, classMap := List.replicate t.grid.zones none
        seq := { active := some a, waiting := [], buffer := [], tally := [] }
        latest := t.latest, keys := t.keys, region := t.region, conds := t.conds
        flash := { cells := s.flash.cells, latch := false, op := none }, draws := s.draws, pending := s.pending } ∧
      (t.pfw = true ↔ ∃ n, 1 ≤ n ∧ n ≤ 9 ∧ i.pfwStep = some n) ∧
      (t.upstream = none ↔ i.selectHeld = false) ∧ (∀ x, t.upstream = some x → x.ignored = true) ∧
      a = { job := { kind := .scan, tag := 0, slot := 0, sector := 0 }, stage := .work, todo := t.scanSteps l,
            phase := .waiting, data := JobData.empty } ∧
      ((∀ x, t.latest = some x → ¬sound x.record) → t.scanSteps l = areas) ∧
      (∀ x, t.latest = some x → sound x.record → t.scanSteps l = areas ++ panel ((x.record.uniLength + 63) / 64)) ∧
      (t.latest = none → ∀ k, k < 128 → ring k = none) ∧
      (∀ x, t.latest = some x → x.slot < 128 ∧ ring x.slot = some x.record ∧
        ∀ k r, k < 128 → ring k = some r →
          r.ringGen ≤ x.record.ringGen ∧ (r.ringGen = x.record.ringGen → x.slot ≤ k)) ∧
      (t.mode = .commissioning ↔ i.lineMode = true ∨ t.latest = none ∨ t.closedFlag = false) ∧
      (t.mode ≠ .commissioning → t.mode = .normal) ∧
      (t.mode = .normal ∨ t.latest = none → t.grid = Grid.empty ∧ resumed = []) ∧
      (∀ x, t.mode = .commissioning → t.latest = some x →
        let r := x.record
        let y := resumeFrom r m l
        resumed = y.reports ∧
        t.grid = { y.grid with genMark := max y.grid.generation (max
          (if r.uniformityValid = true then r.uniGen else 0) (if r.parkValid = true then r.parkGen else 0)) }) ∧
      t.keys.length = 16 ∧
      (∀ k, k < 16 →
        let b := Memory.read m (l.keys + 512 * k) 64
        let h := keyHeader k (decodeEmbedded b) (embeddedData b)
        (decodeEmbedded b = .blank → t.keyEntry k = KeyEntry.empty) ∧
        (decodeEmbedded b ≠ .blank → h = none → t.keyEntry k = { KeyEntry.empty with state := .damaged }) ∧
        ∀ e, decodeEmbedded b ≠ .blank → h = some e → t.keyEntry k =
          if ∃ j < k, (t.keyEntry j).state = .present ∧ (t.keyEntry j).cls = e.cls then { e with state := .damaged } else e) ∧
      ((∀ x, t.latest = some x → ¬legal x.record) → t.region = State.reset.region) ∧
      (∀ x, t.latest = some x → legal x.record →
        let r := x.record
        let known := (profileHeader (profile r.regionSlot)).filter
          (fun h => decide (h.id = r.profileId ∧ h.scale = r.regionScale))
        t.region = { selected := some { slot := r.regionSlot, id := r.profileId, scale := r.regionScale }
                     classes := known.map (fun h => h.classes)
                     directory := (List.replicate 8 none).set r.regionSlot known, reason := 0 }) ∧
      (
        let corrected := if (decodeEmbedded descriptor).corrected = true then
            [({ cls := .descriptor, address := some descriptorBase } : Report)] else []
        let keys := ((List.range 16).filter (fun k => decide ((t.keyEntry k).state = .damaged))).map
          (fun k => ({ cls := .keyDamage, slot := some k } : Report))
        let region := match t.region.selected with
          | some y => if (decodeEmbedded (profile y.slot)).trusted = true then [] else
              [({ cls := .storeUncorrected, address := some (l.profiles + 65536 * y.slot) } : Report)]
          | none => []
        t.conds = (State.raiseAll { State.reset with mode := t.mode }
          (warning 1 ++ warning 2 ++ corrected ++ warning 3 ++ warning 4 ++ warning 5 ++ resumed ++ warning 6 ++ keys ++
            warning 7 ++ region ++ warning 8 ++ warning 9)).conds)

/-- POWER_LOSS: the part loses everything, and the flash keeps every byte but those a cut operation had reached, which hold
what the loss leaves: the value the operand gives last for that byte (R3, R133, log 7). That the lost part reads as the state
before the load, with mode BYPASS, session DORMANT, the latch of the flash clear and no latest record, is the model's choice
(log 3). -/
def Obligations.PowerLossLeavesTheFlash : Prop :=
  ∀ (reached : List Host.Cell) (s : State), s.flashSound →
    (∀ o, s.flash.op = some o → o.base + o.len ≤ flashSize ∧ Memory.wf o.before = true ∧
      ∀ c ∈ o.before, o.base ≤ c.1 ∧ c.1 < o.base + o.len) →
    ∃ t, exec (.powerLoss reached) s = .next t ∧
      t = { State.reset with
        flash := { cells := t.flash.cells, latch := false, op := none }, draws := s.draws, pending := s.pending } ∧
      (s.flash.op = none → t.flash.cells = s.flash.cells) ∧
      (∀ o, s.flash.op = some o → ∀ a, a < flashSize →
        (a < o.base ∨ o.base + o.len ≤ a → Memory.get t.flash.cells a = Memory.get s.flash.cells a) ∧
        (o.base ≤ a → a < o.base + o.len → (∀ c ∈ reached, c.1 % flashSize ≠ a) →
          Memory.get t.flash.cells a = Memory.get o.before a) ∧
        (o.base ≤ a → a < o.base + o.len → ∀ pre v post, reached = pre ++ (a, v) :: post → (∀ c ∈ post, c.1 ≠ a) →
          Memory.get t.flash.cells a = v))

/-- LANE_RESET on a served lane drops the transaction without a count or a condition, clears the shadow, sends WRITE DISABLE
where the lane is free, abandons the FILLING frame, and releases the panel read hold; a publish that waited only for that
hold takes place then (R14, R45, R65, R78, R88). A dropped forwarded write may reach the flash, and then a profile header's
directory entry is forgotten (R170; log 8). Jobs, records, the session and the grid's content stand (R14, R53, R133, R167,
R183). What an abandoned buffer then holds is the model's choice (log 26), and so are that no transaction is left although
U_CS may stay asserted (log 45) and that a flash at an operation of its own takes the WRITE DISABLE (log 38). A reset under
SYS_HOLD sets the line alone (R15), and a second edge changes nothing (log 2). SYS_RST_RELEASE lets later transactions be
served (R1). -/
def Obligations.LaneResetDropsAndKeeps : Prop :=
  (∀ (taken : Bool) (s : State), s.sysRst = false → s.sysHold = false →
    let freed := fun f : Frame => if f.state = .filling then Frame.empty else f
    ∃ u : State, exec (.laneReset taken) s =
        .next (State.settle (if s.grid.hold = true then u.publishWaiting else u)) ∧
      u = { s with
        sysRst := true, upstream := none, shadow := false, grid := { s.grid with hold := false },
        frame0 := freed s.frame0, frame1 := freed s.frame1, flash := u.flash, region := u.region, draws := u.draws,
        seq := { s.seq with active := s.seq.active.map (fun a =>
          if a.phase = .occupied then a else { a with phase := .waiting }) } } ∧
      (s.occupied = false → u.flash.latch = false) ∧
      ((∀ x, s.upstream = some x → x.ignored = true ∨ x.treatment ≠ .forwarded) →
        u.flash.cells = s.flash.cells ∧ u.flash.op = s.flash.op ∧ u.region = s.region ∧ u.draws = s.draws) ∧
      (∀ x, s.upstream = some x → x.ignored = false → x.treatment = .forwarded →
        u.flash.cells = (if taken = true then (s.flashTakes x).flash.cells else s.flash.cells) ∧
        u.region = (if x.command.isWrite = true ∧ x.command ≠ .chipErase then (s.forgetProfile x.judgedAddr).region
          else s.region))) ∧
  (∀ (taken : Bool) (s : State),
    (s.sysRst = true → exec (.laneReset taken) s = .next s.settle) ∧
    (s.sysRst = false → s.sysHold = true →
      exec (.laneReset taken) s = .next (State.settle { s with sysRst := true }))) ∧
  (∀ s : State, exec .sysRstRelease s = .next (State.settle { s with sysRst := false }))

/-- PFW_ASSERT sets the level the sequencer sees and hands the queue a WARNING, which merges into one still queued (R128,
R179, R181), and a job whose next step is an erase or program not yet begun is then held (R128). PFW_DEASSERT withdraws the
WARNING: the queue closes up, and the newest record left takes over its OVERFLOW and PARK_NOT_QUEUED marks (R181); that they
are gone where none is left is the model's choice (log 42). It begins the step a PAUSED job held at where the lane is free
(R128), with all that SEQUENCER_STEP_BEGIN does, an append's commit record too (R137, log 20); that the bytes of an erase or
program stand in the flash as soon as it begins is the model's (log 5, 38), and so is that a line that is not asserted has no
edge to fall (log 2). -/
def Obligations.PowerFailWarningPausesAndResumes : Prop :=
  (∀ s : State,
    exec .pfwAssert s = .next (State.settle (State.raise { s with pfw := true } { cls := .warning }))) ∧
  (∀ s : State, s.pfw = false → exec .pfwDeassert s = .next s.settle) ∧
  (∀ (s : State) (a : Active) (st : Step) (rest : List Step), s.pfw = true → s.seq.active = some a → a.phase = .ready →
    a.todo = st :: rest → st.writes = true → exec .sequencerStepBegin s = .next s.settle) ∧
  (∀ s : State, s.pfw = true → ∃ q, q = withdrawWarning s.conds.records ∧
    ((∀ r ∈ s.conds.records, r.cls ≠ .warning) → q = s.conds.records) ∧
    (∀ pre w post, s.conds.records = pre ++ w :: post → w.cls = .warning → (∀ r ∈ pre, r.cls ≠ .warning) →
      (pre ++ post = [] → q = []) ∧
      ∀ init x, pre ++ post = init ++ [x] → q = init ++ [{ x with
        overflow := x.overflow || w.overflow, parkNotQueued := x.parkNotQueued || w.parkNotQueued }]) ∧
    (
      let u := { s with pfw := false, conds := { s.conds with records := q } }
      ((∀ a st rest, s.seq.active = some a → a.todo = st :: rest → a.phase = .ready → s.laneBusy = false →
          st.writes = false) → exec .pfwDeassert s = .next u.settle) ∧
      (∀ a st rest, s.seq.active = some a → a.todo = st :: rest → a.phase = .ready → s.laneBusy = false →
          st.writes = true → exec .pfwDeassert s = exec .sequencerStepBegin u) ∧
      ∀ (a : Active) (rest : List Step), s.laneBusy = false → s.seq.active = some a → a.phase = .ready →
        (∀ x, a.todo = .erase x :: rest → ∃ b, exec .pfwDeassert s = .next (State.settle (State.withActive { u with
            flash := { cells := Memory.erase s.flash.cells x 4096, latch := false,
                       op := some { base := x, len := 4096, before := Memory.range s.flash.cells x 4096 } } } b)) ∧
          b.phase = .occupied ∧ b.job = a.job ∧ b.todo = a.todo ∧ b.stage = a.stage ∧ (a.stage = .work → b.data = a.data)) ∧
        (∀ x bytes, a.todo = .program x bytes :: rest →
          ∃ b, exec .pfwDeassert s = .next (State.settle (State.withActive { u with
            flash := { cells := Memory.program s.flash.cells x bytes, latch := false,
                       op := some { base := x / 256 * 256, len := 256,
                                    before := Memory.range s.flash.cells (x / 256 * 256) 256 } } } b)) ∧
          b.phase = .occupied ∧ b.job = a.job ∧ b.todo = a.todo ∧ b.stage = a.stage ∧ (a.stage = .work → b.data = a.data))))

/-- LINE_CLOCK_TICK advances the line time by one second in every mode and state, the day following 86 399 and 65 535
wrapping, and changes nothing else (R24). LAMP_FLASH_TIMER turns a flashing lamp from lit to dark and back, and leaves
every other pattern (R26). IDLE_TIMER_EXPIRY of a running timer lapses the session, queues SESSION_LAPSE, and parks an
unsaved grid with tag 0, at once where no job is in progress, or marks PARK_NOT_QUEUED where four jobs wait (R22, R122); a
timer that is stopped or held does not expire (R21, R23, log 2). -/
def Obligations.TheClockAndTheTimersAct : Prop :=
  ∀ s : State,
    exec .lineClockTick s = .next (State.settle { s with session := { s.session with
      seconds := if s.session.seconds + 1 < 86400 then s.session.seconds + 1 else 0
      day := if s.session.seconds + 1 < 86400 then s.session.day else (s.session.day + 1) % 65536 } }) ∧
    exec .lampFlashTimer s = .next (State.settle { s with lamp := { s.lamp with
      lit := match s.lamp.pattern with
        | .flash _ _ => !s.lamp.lit
        | _ => s.lamp.lit } }) ∧
    (∀ n, s.session.timer = .running n →
      let s1 := { s with session := { s.session with state := .lapsed } }
      let park : Job := { kind := .park, tag := 0, slot := 0, sector := 0 }
      let s2 := { s1.raise { cls := .sessionLapse } with seq := { s.seq with waiting := s.seq.waiting ++ [park] } }
      (s.unsaved = false → exec .idleTimerExpiry s = .next (State.settle (s1.raise { cls := .sessionLapse }))) ∧
      (s.unsaved = true → 4 ≤ s.seq.waiting.length →
        exec .idleTimerExpiry s = .next (State.settle (s1.raise { cls := .sessionLapse, parkNotQueued := true }))) ∧
      (s.unsaved = true → s.seq.waiting.length < 4 → exec .idleTimerExpiry s = .next (State.settle s2.startDue) ∧
        (s.seq.active ≠ none → s2.startDue = s2) ∧
        (s.seq.active = none → s.seq.waiting = [] → ∀ l, s.layout = some l →
          ∃ a, s2.startDue.seq.active = some a ∧ a.job = park ∧ s2.startDue.seq.waiting = [] ∧
            s2.startDue.grid = { s.grid with lock := some .park }))) ∧
    (s.session.timer = .stopped ∨ s.session.timer = .held → exec .idleTimerExpiry s = .next s.settle)

/-! ## The flash lane -/

/-- A whole READ or FAST READ outside an occupied period serves each byte from the source of its own address, counts one read
of the start address's window and in every watch it matches, whose last generation served becomes the grid's where a byte
came from the overlay, cuts a sequencer read, and changes nothing else (R6, R12, R13, R35, R45, R114); but that a frame which
waited only for the panel read hold it took publishes at its end (R45, R78). That a read while the flash runs a forwarded
operation of its own finds the new bytes is the model's choice (log 5). The source of a byte is, by its own address, a
response page in APERTURE in COMMISSIONING mode alone; the overlay in PANEL below the presented length, there alone and with
a geometry set; in REMAP the flash at the selected slot's same offset; else the flash at that address, with a layout that
holds R16, as every layout taken does (R5, R16, R100, R173). Each response page holds the fields of 03 §3.6 at its offsets,
and zero elsewhere (R25, R35, R36, R37, R38, R99); that the unused high half of the class map's last byte reads 0 (log 40),
that the bits of the flag bytes which 03 §3.6 leaves unnamed read 0, and that a mark of one byte reads 1 while set (log 46),
are the model's choices. -/
def Obligations.ReadsServeEachByteFromItsSource : Prop :=
  (∀ (addr : Address) (n : Nat) (s : State), s.laneFree = true → s.occupied = false →
    ∀ c ∈ [Instr.read .whole addr n, Instr.fastRead .whole addr n],
    let shown := (List.range n).any (fun i => (s.sourceAt addr.toNat i).isOverlay)
    let p := s.passed ((List.range n).map (fun i => s.sourceByte (s.sourceAt addr.toNat i)))
    let u := if shown = true then p.publishWaiting else p
    exec c s = .next (State.settle { u with
      counters := modifyAt s.counters (s.windowOf addr.toNat).index (fun x => { x with reads := satSucc 65535 x.reads })
      watches := s.watches.map (fun (w : Watch) =>
        if (w.kind = .read ∨ w.kind = .both) ∧ addr &&& w.mask = w.base &&& w.mask then
          { w with count := satSucc 65535 w.count, lastGen := if shown = true then s.grid.generation else w.lastGen }
        else w) })) ∧
  (∀ (s : State) (addr i : Nat),
    let a := (addr + i) % 16777216
    let presented := if s.grid.width = 6 then 32 + 3 * ((3 * s.grid.zones + 3) / 4) else 32 + 3 * s.grid.zones
    (s.mode = .bypass ∨ s.layout = none → s.sourceAt addr i = .flash a) ∧
    ∀ l, s.mode ≠ .bypass → s.layout = some l → l.valid = true → s.sourceAt addr i =
      if s.mode = .commissioning ∧ l.aperture ≤ a ∧ a < l.aperture + 65536 then
        .page ((a - l.aperture) / 256) ((a - l.aperture) % 256)
      else if s.mode = .commissioning ∧ s.grid.geometry ≠ none ∧ l.panel ≤ a ∧ a < l.panel + 28672 ∧
          a - l.panel < presented then .overlay (a - l.panel)
      else if l.remap ≤ a ∧ a < l.remap + 65536 then
        match s.region.selected with
        | some r => .flash (l.profiles + 65536 * r.slot + (a - l.remap))
        | none => .flash a
      else .flash a) ∧
  (([.bypass, .normal, .commissioning] : List Mode).map Mode.code = [0, 1, 2] ∧
    ([.dormant, .opened, .lapsed, .closed] : List SessionState).map SessionState.code = [0, 1, 2, 3] ∧
    ([.commitGrid, .park, .keyStore, .keyErase, .regionSelect, .closeOut, .scan, .scrub] : List JobKind).map JobKind.code =
      [1, 2, 3, 4, 5, 6, 7, 8] ∧
    ([.free, .filling, .queued, .solving] : List FrameState).map FrameState.code = [0, 1, 2, 3] ∧
    ([.idle, .computing, .publishWait] : List EngineState).map EngineState.code = [0, 1, 2] ∧
    ([.none, .done, .donePoisoned, .verifyFailed, .profileInvalid, .discarded] : List JobOutcome).map JobOutcome.code =
      [0, 1, 2, 3, 4, 5] ∧
    ([.empty, .pending, .present, .damaged] : List KeyState).map KeyState.code = [0, 1, 2, 3] ∧
    ([.idle, .filling, .complete, .held] : List StageState).map StageState.code = [0, 1, 2, 3] ∧
    ([.accepted, .queued, .truncated, .framing, .unknownKind, .noSession, .lapsed, .closed, .busy, .queueFull, .range,
      .notReady, .noFrame, .frameHeld, .historyEmpty, .classTaken, .slotLocked, .stageState, .precondition, .gridStarted,
      .queueEmpty] : List Result).map Result.code =
      [0x00, 0x01, 0x02, 0x80, 0x81, 0x82, 0x83, 0x84, 0x85, 0x86, 0x87, 0x88, 0x89, 0x8A, 0x8B, 0x8C, 0x8D, 0x8E, 0x8F,
       0x90, 0x91]) ∧
  (∀ (s : State) (n : Nat), (s.responsePage n).length = 256 ∧
    (7 < n → n < 16 ∨ 33 < n → ∀ i, (s.responsePage n).getD i 0 = 0)) ∧
  (∀ s : State,
    let p := s.responsePage 0
    byteAt p 0 = s.mode.code ∧ byteAt p 1 = s.session.state.code ∧ p.getD 2 0 = s.intake.lastTag ∧
    byteAt p 3 = s.intake.lastResult.code ∧ fieldAt p 4 2 = s.intake.recordCount % 65536 ∧
    byteAt p 6 = (match s.seq.active with | some a => a.job.kind.code | none => 0) ∧
    byteAt p 7 = (if s.jobPaused = true then 1 else 0) ∧ byteAt p 8 = s.seq.waiting.length % 256 ∧
    byteAt p 9 = s.frame0.state.code ∧ byteAt p 10 = s.frame1.state.code ∧ byteAt p 11 = s.engine.state.code ∧
    fieldAt p 12 4 = s.grid.generation % 4294967296 ∧ fieldAt p 16 4 = (s.uniGen?.getD 0) % 4294967296 ∧
    fieldAt p 20 4 = (s.parkGen?.getD 0) % 4294967296 ∧
    fieldAt p 24 4 = (match s.latest with | some x => x.record.ringGen | none => 0) % 4294967296 ∧
    (List.range 8).map (p.getD 28 0).getLsbD =
      [s.clean, s.unsaved, s.grid.geometry.isSome, s.grid.lock.isSome, s.session.timeValid, s.closedFlag,
       s.session.publishSeen, false] ∧
    byteAt p 29 = s.history.stack.length % 256 ∧ fieldAt p 30 2 = s.history.truncated % 65536 ∧
    byteAt p 32 = s.conds.records.length % 256 ∧ byteAt p 33 = s.intake.closeOutIndex % 256 ∧
    fieldAt p 34 2 = s.session.day % 65536 ∧ fieldAt p 36 4 = s.session.seconds % 4294967296 ∧
    (fieldAt p 40 4 : Int) = (if s.session.timeValid = true then
        min 4294967295 (max 0 (((s.session.day : Int) - s.session.openDay) % 65536 * 86400 + s.session.seconds
          - s.session.openSeconds))
      else 0) ∧
    byteAt p 44 = (match s.region.selected with | some r => r.slot % 256 | none => 0xFF) ∧
    byteAt p 45 = (match s.region.selected with | some r => r.id % 256 | none => 0) ∧
    byteAt p 46 = s.session.station % 256 ∧ ∀ i, 47 ≤ i → byteAt p i = 0) ∧
  (∀ (s : State) (e : Nat) (x : OutcomeEntry), s.intake.outcomes.length = 9 → s.intake.outcomes[e]? = some x →
    let p := s.responsePage 1
    p.getD (8 * e) 0 = x.tag ∧ byteAt p (8 * e + 1) = x.outcome.code ∧ byteAt p (8 * e + 2) = x.count % 256 ∧
    byteAt p (8 * e + 3) = 0 ∧ fieldAt p (8 * e + 4) 4 = x.ringGen % 4294967296 ∧ ∀ i, 72 ≤ i → byteAt p i = 0) ∧
  (∀ s : State,
    let p := s.responsePage 2
    (s.report = none → ∀ i, byteAt p i = 0) ∧
    ∀ r, s.report = some r →
      p.getD 0 0 = r.tag ∧ byteAt p 1 = r.plane.index ∧ byteAt p 2 = r.rect.x0 % 256 ∧ byteAt p 3 = r.rect.y0 % 256 ∧
      byteAt p 4 = r.rect.w % 256 ∧ byteAt p 5 = r.rect.h % 256 ∧ fieldAt p 6 2 = r.unmeasured % 65536 ∧
      fieldAt p 8 2 = r.inBand % 65536 ∧ fieldAt p 10 2 = r.adjusted % 65536 ∧ fieldAt p 12 2 = r.partialMoves % 65536 ∧
      fieldAt p 14 2 = r.saturated % 65536 ∧ fieldAt p 16 4 = r.largest % 4294967296 ∧
      p.getD 20 0 = BitVec.ofInt 8 r.minCode ∧ p.getD 21 0 = BitVec.ofInt 8 r.maxCode ∧
      fieldAt p 22 4 = r.generation % 4294967296 ∧ byteAt p 26 = 1 ∧ ∀ i, 27 ≤ i → byteAt p i = 0) ∧
  (∀ s : State,
    let p := s.responsePage 3
    (s.conds.records = [] → ∀ i, byteAt p i = 0) ∧
    ∀ r rest, s.conds.records = r :: rest →
      byteAt p 0 = (rest.length + 1) % 256 ∧ byteAt p 1 = 1 ∧ fieldAt p 2 2 = r.seq % 65536 ∧ byteAt p 4 = r.cls.code ∧
      (List.range 8).map (p.getD 5 0).getLsbD =
        [r.indirect, r.ancillary, r.overflow, r.parkNotQueued, false, false, false, false] ∧
      (List.range 8).map (p.getD 6 0).getLsbD =
        [r.address.isSome, r.slot.isSome, r.command.isSome, false, false, false, false, false] ∧
      fieldAt p 7 3 = (r.address.getD 0) % 16777216 ∧ byteAt p 10 = (r.slot.getD 0) % 256 ∧
      p.getD 11 0 = r.command.getD 0 ∧ byteAt p 12 = r.repeats % 256 ∧
      byteAt p 13 = (if r.timeValid = true then 1 else 0) ∧ fieldAt p 14 2 = r.day % 65536 ∧
      fieldAt p 16 4 = r.seconds % 4294967296 ∧ byteAt p 20 = r.mode.code ∧ ∀ i, 21 ≤ i → byteAt p i = 0) ∧
  (∀ s : State,
    let p := s.responsePage 4
    byteAt p 0 = s.history.stack.length % 256 ∧ (∀ i, 1 ≤ i → i < 8 → byteAt p i = 0) ∧
    (∀ i, 8 + 8 * s.history.stack.length ≤ i → byteAt p i = 0) ∧
    ∀ i e, i < 8 → s.history.stack[i]? = some e →
      byteAt p (8 + 8 * i) = e.plane.index ∧ byteAt p (9 + 8 * i) = e.rect.x0 % 256 ∧
      byteAt p (10 + 8 * i) = e.rect.y0 % 256 ∧ byteAt p (11 + 8 * i) = e.rect.w % 256 ∧
      byteAt p (12 + 8 * i) = e.rect.h % 256 ∧ p.getD (13 + 8 * i) 0 = e.tag ∧
      fieldAt p (14 + 8 * i) 2 = (e.rect.w * e.rect.h + (e.rect.w * e.rect.h + 7) / 8) % 65536) ∧
  (∀ s : State, s.keys.length = 16 →
    let p := s.responsePage 5
    (∀ i k, s.keys[i]? = some k →
      byteAt p (12 * i) = k.state.code ∧ byteAt p (12 * i + 1) = k.cls % 256 ∧
      fieldAt p (12 * i + 2) 2 = k.length % 65536 ∧ byteAt p (12 * i + 4) = k.station % 256 ∧
      byteAt p (12 * i + 5) = 0 ∧ fieldAt p (12 * i + 6) 2 = k.day % 65536 ∧
      fieldAt p (12 * i + 8) 4 = k.seconds % 4294967296) ∧
    byteAt p 192 = s.staging.state.code ∧ byteAt p 193 = s.staging.slot % 256 ∧ byteAt p 194 = s.staging.cls % 256 ∧
    byteAt p 195 = 0 ∧ fieldAt p 196 2 = s.staging.total % 65536 ∧ fieldAt p 198 2 = s.staging.filled % 65536 ∧
    ∀ i, 200 ≤ i → byteAt p i = 0) ∧
  (∀ s : State, s.counters.length = 10 → s.watches.length = 4 →
    let p := s.responsePage 6
    (∀ j c, s.counters[j]? = some c →
      fieldAt p (6 * j) 2 = c.reads % 65536 ∧ fieldAt p (6 * j + 2) 2 = c.writes % 65536 ∧
      fieldAt p (6 * j + 4) 2 = c.withheld % 65536) ∧
    (∀ j w, s.watches[j]? = some w →
      byteAt p (64 + 16 * j) = w.kind.code ∧ byteAt p (65 + 16 * j) = 0 ∧ fieldAt p (66 + 16 * j) 3 = w.base.toNat ∧
      fieldAt p (69 + 16 * j) 3 = w.mask.toNat ∧ fieldAt p (72 + 16 * j) 2 = w.count % 65536 ∧
      fieldAt p (74 + 16 * j) 4 = w.lastGen % 4294967296 ∧ fieldAt p (78 + 16 * j) 2 = 0) ∧
    (∀ i, 60 ≤ i → i < 64 → byteAt p i = 0) ∧ ∀ i, 128 ≤ i → byteAt p i = 0) ∧
  (∀ s : State,
    let p := s.responsePage 7
    (s.region.selected = none → byteAt p 0 = 0 ∧ byteAt p 1 = 0xFF ∧ byteAt p 2 = 0 ∧ fieldAt p 3 2 = 256) ∧
    (∀ r, s.region.selected = some r → byteAt p 0 = 1 ∧ byteAt p 1 = r.slot % 256 ∧ byteAt p 2 = r.id % 256 ∧
      fieldAt p 3 2 = r.scale % 65536) ∧
    (s.region.classes = none → byteAt p 5 = 0xFF ∧ ∀ i, i < 8 → byteAt p (6 + i) = 0) ∧
    (∀ cs, s.region.classes = some cs → byteAt p 5 = cs.length % 256 ∧
      ∀ i, i < 8 → byteAt p (6 + i) = (cs.getD i 0) % 256) ∧
    byteAt p 14 = s.region.reason % 256 ∧ ∀ i, 15 ≤ i → byteAt p i = 0) ∧
  (∀ (s : State) (i : Nat), i < 9216 →
    (byteAt (s.responsePage (16 + i / 512)) (i / 2 % 256) / (if i % 2 = 0 then 1 else 16)) % 16 =
      (match s.classMap[i]? with
        | none => 0
        | some none => 15
        | some (some .unmeasured) => 0
        | some (some .inBand) => 1
        | some (some .adjusted) => 2
        | some (some .partialMove) => 3
        | some (some .saturated) => 4))

/-- The overlay's header of 32 bytes holds the magic, version 1, three planes, the geometry, the format, the generation, the
gray levels, 0 for an unset plane, the presented length and the mark of unknown zone-planes, and zeros (R101, R107). Behind
it stand the presented codes in grid order: an unknown zone-plane presents 0, any other its code divided by 2 to the shift,
rounded with halves up, and clamped to the width in force (R102, R103, R104). At width 8 code k is byte k; at width 6 bit b
of code k is bit 6k + b of the packed bytes (R105, R106, R108). -/
def Obligations.TheOverlayShowsThePresentedCodes : Prop :=
  (∀ g : Grid, g.sound →
    let h := (List.range 32).map g.overlayByte
    byteAt h 0 = 0x5A ∧ byteAt h 1 = 0xC3 ∧ byteAt h 2 = 1 ∧ byteAt h 3 = 3 ∧ byteAt h 4 = g.cols ∧ byteAt h 5 = g.rows ∧
    byteAt h 6 = g.width ∧ byteAt h 7 = g.shift ∧ fieldAt h 8 4 = g.generation ∧
    fieldAt h 12 2 = (match g.low with | some r => r.gray % 65536 | none => 0) ∧
    fieldAt h 14 2 = (match g.mid with | some r => r.gray % 65536 | none => 0) ∧
    fieldAt h 16 2 = (match g.high with | some r => r.gray % 65536 | none => 0) ∧
    fieldAt h 18 4 = (if g.width = 6 then 32 + 3 * ((3 * g.zones + 3) / 4) else 32 + 3 * g.zones) ∧
    byteAt h 22 = (if true ∈ g.marks then 1 else 0) ∧ ∀ i, 23 ≤ i → byteAt h i = 0) ∧
  ∀ (g : Grid) (k : Nat), g.sound → k < 3 * g.zones →
    (g.marks.getD k false = true → g.presented k = 0) ∧
    (g.marks.getD k false = false →
      let rounded := (2 * g.codes.getD k 0 + 2 ^ g.shift) / (2 * 2 ^ g.shift)
      let p := if g.shift = 0 then g.codes.getD k 0 else rounded
      g.presented k = max (-(2 ^ (g.width - 1))) (min (2 ^ (g.width - 1) - 1) p)) ∧
    (g.width = 8 → (g.overlayByte (32 + k)).toInt = g.presented k) ∧
    (g.width = 6 → ∀ b, b < 6 →
      (g.overlayByte (32 + (6 * k + b) / 8)).getLsbD ((6 * k + b) % 8) = (BitVec.ofInt 6 (g.presented k)).getLsbD b)

/-- Inside an occupied period a whole READ or FAST READ serves overlay and page bytes as ever and 0xFF for every other byte,
and queues one COLLISION for the sector of the first filled byte if there is one; it counts one read of its window and in
every watch it matches, a frame that waited only for the panel read hold it took publishes at its end, and nothing else
changes (R11, R13, R45, R78, R114). A byte's source is the one R5 gives for its own address, of a layout that holds R16: page
bytes in APERTURE in COMMISSIONING mode, overlay bytes in PANEL there with a geometry, below the presented length, and the
flash's, at a translated address in REMAP while a region is selected, for every other (R5, R100, R173). -/
def Obligations.OccupiedReadsFillAndCollide : Prop :=
  (∀ (addr : Address) (n : Nat) (s : State), s.laneFree = true → s.occupied = true →
    ∀ c ∈ [Instr.read .whole addr n, Instr.fastRead .whole addr n],
    let shown := (List.range n).any (fun i => (s.sourceAt addr.toNat i).isOverlay)
    let p := s.passed ((List.range n).map (fun i => s.sourceByteOccupied (s.sourceAt addr.toNat i)))
    let u := if shown = true then p.publishWaiting else p
    p.seq = s.seq ∧
    exec c s = .next (State.settle { u with
      counters := modifyAt s.counters (s.windowOf addr.toNat).index (fun x => { x with reads := satSucc 65535 x.reads })
      watches := s.watches.map (fun (w : Watch) =>
        if (w.kind = .read ∨ w.kind = .both) ∧ addr &&& w.mask = w.base &&& w.mask then
          { w with count := satSucc 65535 w.count, lastGen := if shown = true then s.grid.generation else w.lastGen }
        else w)
      conds :=
        (match (List.range n).find? (fun i => (s.sourceAt addr.toNat i).isFlash) with
          | some i => (s.raise { cls := .collision,
                                 address := some (sectorOf ((addr.toNat + i) % flashSize)) }).conds
          | none => s.conds) })) ∧
  (∀ (s : State) (addr i : Nat),
    let a := (addr + i) % 16777216
    let presented := if s.grid.width = 6 then 32 + 3 * ((3 * s.grid.zones + 3) / 4) else 32 + 3 * s.grid.zones
    (s.mode = .bypass ∨ s.layout = none → s.sourceAt addr i = .flash a) ∧
    ∀ l, s.mode ≠ .bypass → s.layout = some l → l.valid = true → s.sourceAt addr i =
      if s.mode = .commissioning ∧ l.aperture ≤ a ∧ a < l.aperture + 65536 then
        .page ((a - l.aperture) / 256) ((a - l.aperture) % 256)
      else if s.mode = .commissioning ∧ s.grid.geometry ≠ none ∧ l.panel ≤ a ∧ a < l.panel + 28672 ∧
          a - l.panel < presented then .overlay (a - l.panel)
      else if l.remap ≤ a ∧ a < l.remap + 65536 then
        match s.region.selected with
        | some r => .flash (l.profiles + 65536 * r.slot + (a - l.remap))
        | none => .flash a
      else .flash a)

/-- A forwarded PAGE PROGRAM or SECTOR ERASE, BLOCK ERASE where every sector would be forwarded, and CHIP ERASE in BYPASS:
with its write-enable latch set the flash takes it and clears the latch; the shadow is cleared, one write of its window is
counted, CHIP ERASE in PASS, and one in every watch it matches by the address sent, CHIP ERASE in none; the directory entry
of a profile header sector it reaches is forgotten, a sequencer read is cut, and nothing else changes (R2, R3, R5, R7, R9,
R12, R13, R113, R114, R170). An address is forwarded in BYPASS, in PASS, in APERTURE in NORMAL mode, and in PROFILES but in
the first sector of the selected slot, and nowhere else, REMAP and APERTURE in COMMISSIONING among them; its window is the
one that holds it, of a layout that holds R16 (R5, R16, R173). That the bytes change as the transaction ends is the model's
choice (log 5), and so is a program of no byte or of more than 256 (log 25), and one that arrives while the flash is at an
operation (log 38). -/
def Obligations.ForwardedWritesReachTheFlash : Prop :=
  let watched := fun (s : State) (addr : Address) => s.watches.map (fun (w : Watch) =>
    if (w.kind = .write ∨ w.kind = .both) ∧ addr &&& w.mask = w.base &&& w.mask then
      { w with count := satSucc 65535 w.count } else w)
  let counted := fun (s : State) (a : Nat) =>
    modifyAt s.counters (s.windowOf a).index (fun x => { x with writes := satSucc 65535 x.writes })
  let forgotten := fun (s : State) (a : Nat) => match s.layout with
    | some l => if l.profiles ≤ a ∧ a < l.profiles + 524288 ∧ (a - l.profiles) % 65536 < 4096 then
        { s.region with directory := s.region.directory.set ((a - l.profiles) / 65536) none } else s.region
    | none => s.region
  let erased := fun (s : State) (base len : Nat) => if s.flash.latch = true then
      { cells := Memory.erase s.flash.cells base len, latch := false,
        op := some { base := base, len := len, before := Memory.range s.flash.cells base len } }
    else s.flash
  (∀ (s : State) (a : Nat),
    (s.mode = .bypass ∨ s.layout = none → s.windowOf a = .pass ∧ s.forwards a = true) ∧
    ∀ l, s.mode ≠ .bypass → s.layout = some l → l.valid = true →
      let windows : List (Window × Nat × Nat) := [(.descriptor, 0xFFF000, 4096), (.panel, l.panel, 28672),
        (.panelCheck, l.panelCheck, 4096), (.aperture, l.aperture, 65536), (.keys, l.keys, 8192), (.park, l.park, 40960),
        (.ring, l.ring, 8192), (.profiles, l.profiles, 524288), (.remap, l.remap, 65536)]
      (∀ w ∈ windows, w.2.1 ≤ a → a < w.2.1 + w.2.2 →
        s.windowOf a = (if w.1 = .aperture ∧ s.mode = .normal then .pass else w.1) ∧
        (s.forwards a = true ↔ (w.1 = .aperture ∧ s.mode = .normal) ∨ (w.1 = .profiles ∧
          ∀ r, s.region.selected = some r →
            ¬(l.profiles + 65536 * r.slot ≤ a ∧ a < l.profiles + 65536 * r.slot + 4096)))) ∧
      ((∀ w ∈ windows, ¬(w.2.1 ≤ a ∧ a < w.2.1 + w.2.2)) → s.windowOf a = .pass ∧ s.forwards a = true)) ∧
  (∀ (addr : Address) (data : List Byte) (s : State), s.laneFree = true → s.occupied = false →
    s.forwards addr.toNat = true → s.windowOf addr.toNat ≠ .aperture →
    let page := addr.toNat / 256 * 256
    exec (.pageProgram .whole addr data) s = .next (State.settle { s.passed [] with
      flash := (if s.flash.latch = true then
          { cells := Memory.program s.flash.cells addr.toNat data, latch := false,
            op := some { base := page, len := 256, before := Memory.range s.flash.cells page 256 } }
        else s.flash)
      shadow := false, counters := counted s addr.toNat, watches := watched s addr
      region := forgotten s addr.toNat })) ∧
  (∀ (addr : Address) (s : State), s.laneFree = true → s.occupied = false → s.forwards addr.toNat = true →
    exec (.sectorErase .whole addr) s = .next (State.settle { s.passed [] with
      flash := erased s (addr.toNat / 4096 * 4096) 4096, shadow := false, counters := counted s addr.toNat
      watches := watched s addr, region := forgotten s addr.toNat })) ∧
  (∀ (addr : Address) (s : State), s.laneFree = true → s.occupied = false →
    let block := addr.toNat / 65536 * 65536
    (∀ k, k < 16 → s.forwards (block + 4096 * k) = true) →
    exec (.blockErase .whole addr) s = .next (State.settle { s.passed [] with
      flash := erased s block 65536, shadow := false, counters := counted s block
      watches := watched s addr, region := forgotten s block })) ∧
  (∀ s : State, s.laneFree = true → s.mode = .bypass →
    exec (.chipErase .whole) s = .next (State.settle { s.passed [] with
      flash := erased s 0 16777216, shadow := false
      counters := modifyAt s.counters 0 (fun x => { x with writes := satSucc 65535 x.writes }) })) ∧
  (∀ (m : Memory) (base len : Nat), Memory.wf m = true → ∀ a,
    Memory.get (Memory.erase m base len) a = if base ≤ a ∧ a < base + len then 0xFF else Memory.get m a) ∧
  (∀ (m : Memory) (addr : Address) (data : List Byte), Memory.wf m = true → data.length ≤ 256 → ∀ a, a < flashSize →
    let k := (a % 256 + 256 - addr.toNat % 256) % 256
    Memory.get (Memory.program m addr.toNat data) a =
      if a / 256 = addr.toNat / 256 ∧ k < data.length then Memory.get m a &&& data.getD k 0 else Memory.get m a)

/-- A withheld PAGE PROGRAM, SECTOR ERASE, BLOCK ERASE or CHIP ERASE reaches no byte of the flash, clears the shadow, clears
the flash's latch where the lane is free, counts one withheld command in the window it is judged against, and in every watch
it matches by the address sent, CHIP ERASE in none, and queues LANE_REFUSED for its sector, or COLLISION inside an occupied
period (R7, R8, R11, R113, R114; log 17 for BLOCK ERASE there). Outside BYPASS an address is withheld in DESCRIPTOR, PANEL,
PANEL_CHECK, KEYS, PARK, RING and REMAP, in APERTURE in COMMISSIONING mode, and in the first sector of the selected slot of
PROFILES, and nowhere else; its window is the one that holds it, of a layout that holds R16 (R5, R16, R173); that a flash at
an operation of its own takes the WRITE DISABLE is the model's choice (log 38). -/
def Obligations.WithheldWritesAreRefused : Prop :=
  let watched := fun (s : State) (addr : Address) => s.watches.map (fun (w : Watch) =>
    if (w.kind = .write ∨ w.kind = .both) ∧ addr &&& w.mask = w.base &&& w.mask then
      { w with count := satSucc 65535 w.count } else w)
  (∀ (s : State) (a : Nat),
    (s.mode = .bypass ∨ s.layout = none → s.windowOf a = .pass ∧ s.forwards a = true) ∧
    ∀ l, s.mode ≠ .bypass → s.layout = some l → l.valid = true →
      let windows : List (Window × Nat × Nat) := [(.descriptor, 0xFFF000, 4096), (.panel, l.panel, 28672),
        (.panelCheck, l.panelCheck, 4096), (.aperture, l.aperture, 65536), (.keys, l.keys, 8192), (.park, l.park, 40960),
        (.ring, l.ring, 8192), (.profiles, l.profiles, 524288), (.remap, l.remap, 65536)]
      (∀ w ∈ windows, w.2.1 ≤ a → a < w.2.1 + w.2.2 →
        s.windowOf a = (if w.1 = .aperture ∧ s.mode = .normal then .pass else w.1) ∧
        (s.forwards a = true ↔ (w.1 = .aperture ∧ s.mode = .normal) ∨ (w.1 = .profiles ∧
          ∀ r, s.region.selected = some r →
            ¬(l.profiles + 65536 * r.slot ≤ a ∧ a < l.profiles + 65536 * r.slot + 4096)))) ∧
      ((∀ w ∈ windows, ¬(w.2.1 ≤ a ∧ a < w.2.1 + w.2.2)) → s.windowOf a = .pass ∧ s.forwards a = true)) ∧
  (∀ (addr : Address) (data : List Byte) (s : State), s.laneFree = true → s.windowOf addr.toNat ≠ .aperture →
    s.occupied = true ∨ s.forwards addr.toNat = false →
    ∃ t, exec (.pageProgram .whole addr data) s = .next t ∧ t.flash.cells = s.flash.cells ∧ t.shadow = false ∧
      t.watches = watched s addr ∧
      t.flash.latch = (s.occupied && s.flash.latch) ∧
      t.counters = modifyAt s.counters (s.windowOf addr.toNat).index CounterSet.addWithheld ∧
      t.conds = (s.raise { cls := if s.occupied then .collision else .laneRefused,
                           address := some (sectorOf addr.toNat) }).conds ∧
      t.intake = s.intake ∧ t.upstream = none ∧ t.seq = (s.passed []).seq) ∧
  (∀ (addr : Address) (s : State), s.laneFree = true → s.occupied = true ∨ s.forwards addr.toNat = false →
    ∃ t, exec (.sectorErase .whole addr) s = .next t ∧ t.flash.cells = s.flash.cells ∧ t.shadow = false ∧
      t.watches = watched s addr ∧
      t.flash.latch = (s.occupied && s.flash.latch) ∧
      t.counters = modifyAt s.counters (s.windowOf addr.toNat).index CounterSet.addWithheld ∧
      t.conds = (s.raise { cls := if s.occupied then .collision else .laneRefused,
                           address := some (sectorOf addr.toNat) }).conds ∧
      t.intake = s.intake ∧ t.upstream = none ∧ t.seq = (s.passed []).seq) ∧
  (∀ (addr : Address) (k : Nat) (s : State), s.laneFree = true → s.occupied = false → k < 16 →
    s.forwards (blockOf addr.toNat + 4096 * k) = false →
    (∀ j, j < k → s.forwards (blockOf addr.toNat + 4096 * j) = true) →
    ∃ t, exec (.blockErase .whole addr) s = .next t ∧ t.flash.cells = s.flash.cells ∧ t.shadow = false ∧
      t.watches = watched s addr ∧
      t.flash.latch = false ∧
      t.counters = modifyAt s.counters (s.windowOf (blockOf addr.toNat + 4096 * k)).index CounterSet.addWithheld ∧
      t.conds = (s.raise { cls := .laneRefused, address := some (blockOf addr.toNat + 4096 * k) }).conds ∧
      t.upstream = none) ∧
  (∀ (addr : Address) (s : State), s.laneFree = true → s.occupied = true →
    ∃ t, exec (.blockErase .whole addr) s = .next t ∧ t.flash = s.flash ∧ t.shadow = false ∧
      t.watches = watched s addr ∧
      t.counters = modifyAt s.counters (s.windowOf (blockOf addr.toNat)).index CounterSet.addWithheld ∧
      t.conds = (s.raise { cls := .collision, address := some (blockOf addr.toNat) }).conds ∧ t.upstream = none) ∧
  (∀ s : State, s.laneFree = true → s.mode ≠ .bypass →
    ∃ t, exec (.chipErase .whole) s = .next t ∧ t.flash.cells = s.flash.cells ∧ t.shadow = false ∧
      t.flash.latch = (s.occupied && s.flash.latch) ∧
      t.counters = modifyAt s.counters 0 CounterSet.addWithheld ∧ t.watches = s.watches ∧
      t.conds = (s.raise { cls := if s.occupied then .collision else .laneRefused, command := some 0xC7 }).conds)

/-- WRITE ENABLE and WRITE DISABLE set and clear the shadow as their transactions end, and reach the flash's latch but inside
an occupied period (R2, R9, R11); that the flash takes them also while an operation of its own is in progress is the model's
choice (log 38). A transaction dropped before its decision changes nothing (R1), but that its select cuts a sequencer read,
which is the model's choice (log 22; R12). A transaction of any command that begins under SYS_HOLD or SYS_RST is ignored to
its end and reads 0xFF (R1); that it cuts no sequencer read is the model's choice (log 16). -/
def Obligations.EnablesAndDroppedTransactions : Prop :=
  (∀ s : State, s.laneFree = true →
    exec (.writeEnable .whole) s = .next (State.settle { s.passed [] with
      shadow := true, flash := if s.occupied then s.flash else s.flash.setLatch true }) ∧
    exec (.writeDisable .whole) s = .next (State.settle { s.passed [] with
      shadow := false, flash := if s.occupied then s.flash else s.flash.setLatch false }) ∧
    exec (.transactionDropped .whole) s = .next (State.settle (s.passed []))) ∧
  (∀ (addr : Address) (n b : Nat) (code : Byte) (data : List Byte) (s : State), s.upstream = none →
    s.sysHold = true ∨ s.sysRst = true →
    (∀ c ∈ [Instr.read .whole addr n, .fastRead .whole addr n, .readStatus .whole n b, .readId .whole n],
      exec c s = .next (State.settle { s with served := List.replicate n 0xFF })) ∧
    (∀ c ∈ [Instr.pageProgram .whole addr data, .sectorErase .whole addr, .blockErase .whole addr, .chipErase .whole,
        .writeEnable .whole, .writeDisable .whole, .transactionDropped .whole],
      exec c s = .next (State.settle { s with served := [] })) ∧
    (recognisedBytes.contains code = false →
      exec (.unrecognisedCommand .whole code data) s =
        .next (State.settle { s with served := List.replicate data.length 0xFF })))

/-- Inside an occupied period READ STATUS answers not busy and the shadow, and READ ID reads fill and queues COLLISION;
outside, the flash answers READ STATUS with its latch in bit 1 and its busy state in bit 0, its other bits and the
identification being the flash's own (R2, R3, R11; the free values are log 9). -/
def Obligations.StatusAndIdentificationReads : Prop :=
  (∀ (n b : Nat) (s : State), s.laneFree = true → s.occupied = true →
    exec (.readStatus .whole n b) s =
      .next (State.settle (s.passed (List.replicate n (if s.shadow then 2 else 0)))) ∧
    ∃ t, exec (.readId .whole n) s = .next t ∧ t.served = List.replicate n erasedByte ∧
      t.conds = (s.raise { cls := .collision, command := some 0x9F }).conds ∧ t.flash = s.flash ∧
      t.counters = s.counters) ∧
  (∀ (n b : Nat) (s : State), s.laneFree = true → s.occupied = false →
    (∃ t, exec (.readStatus .whole n b) s = .next t ∧ t.served.length = n ∧
      (∀ i, i < n → ((t.served.getD i 0).getLsbD 1 = s.flash.latch) ∧
        ((t.served.getD i 0).getLsbD 0 = (decide (i < b) && s.flash.op.isSome))) ∧
      t.flash.cells = s.flash.cells ∧ t.flash.latch = s.flash.latch ∧ t.shadow = s.shadow ∧
      t.counters = s.counters ∧ t.conds = s.conds) ∧
    ∃ t, exec (.readId .whole n) s = .next t ∧ t.served = (List.range n).map Config.identificationByte ∧
      t.conds = s.conds ∧ t.flash = s.flash ∧ t.counters = s.counters ∧ t.shadow = s.shadow)

/-- The command byte of a transaction picks its command by the table of R2, an address following most significant byte first
(R1), a FAST READ sending one dummy byte more, without which it reads no byte, and a transaction that ends before its command
and address are complete being dropped (R1, R2). That further bytes behind the address of an erase, or behind CHIP ERASE,
WRITE ENABLE or WRITE DISABLE, are dropped and the command is taken is the model's choice (log 44). In NORMAL and
COMMISSIONING modes an unrecognised command is not forwarded: it reads 0xFF, queues LANE_REFUSED with its byte, and changes
no counter and not the shadow (R4). In BYPASS it is forwarded with no condition: what the flash answers, and what becomes of
its bytes and its latch, are free values (R4; log 10). A byte of the table is no unrecognised command, and as one it changes
nothing (log 2). -/
def Obligations.UnrecognisedCommandsAreRefused : Prop :=
  (∀ (hi mid lo dummy : Byte) (d : List Byte) (n : Nat),
    let a : Address := hi ++ mid ++ lo
    transactionOf (0x03 :: hi :: mid :: lo :: d) n = .read .whole a d.length ∧
    transactionOf (0x0B :: hi :: mid :: lo :: dummy :: d) n = .fastRead .whole a d.length ∧
    transactionOf [0x0B, hi, mid, lo] n = .fastRead .whole a 0 ∧
    transactionOf (0x02 :: hi :: mid :: lo :: d) n = .pageProgram .whole a d ∧
    transactionOf (0x20 :: hi :: mid :: lo :: d) n = .sectorErase .whole a ∧
    transactionOf (0xD8 :: hi :: mid :: lo :: d) n = .blockErase .whole a ∧
    transactionOf (0xC7 :: d) n = .chipErase .whole ∧ transactionOf (0x06 :: d) n = .writeEnable .whole ∧
    transactionOf (0x04 :: d) n = .writeDisable .whole ∧ transactionOf (0x05 :: d) n = .readStatus .whole d.length n ∧
    transactionOf (0x9F :: d) n = .readId .whole d.length ∧
    transactionOf [] n = .transactionDropped .whole ∧
    (∀ c ∈ ([0x03, 0x0B, 0x02, 0x20, 0xD8] : List Byte), ∀ e : List Byte, e.length < 3 →
      transactionOf (c :: e) n = .transactionDropped .whole)) ∧
  recognisedBytes = [0x03, 0x0B, 0x02, 0x20, 0xD8, 0xC7, 0x06, 0x04, 0x05, 0x9F] ∧
  (∀ (b : Byte) (data : List Byte) (s : State), recognisedBytes.contains b = false →
    (∀ n, transactionOf (b :: data) n = .unrecognisedCommand .whole b data) ∧
    (s.laneFree = true → s.mode ≠ .bypass →
      exec (.unrecognisedCommand .whole b data) s =
        .next (State.settle ((s.passed (List.replicate data.length 0xFF)).raise
          { cls := .laneRefused, command := some b }))) ∧
    (s.laneFree = true → s.mode = .bypass →
      exec (.unrecognisedCommand .whole b data) s =
        .next (State.settle
          { s.passed ((List.range data.length).map (fun i => Config.unrecognisedAnswer s.draws b i)) with
            flash := { s.flash with
              cells := Memory.setAll s.flash.cells (Config.unrecognisedCells s.draws b data)
              latch := Config.unrecognisedLatch s.draws b data }
            draws := s.draws + 1 }))) ∧
  (∀ (sp : Span) (b : Byte) (data : List Byte) (s : State), recognisedBytes.contains b = true →
    exec (.unrecognisedCommand sp b data) s = .next s.settle)

/-- A PAGE PROGRAM into the aperture in COMMISSIONING mode is taken as a record when its transaction ends, inside and outside
an occupied period: it reaches no byte of the flash, clears the shadow, and counts as a write of APERTURE and in every watch
it matches, with no condition of its own (R8, R28, R29, R114). Then the record has the effect of its command: of its kind's,
with the tag and the body its bytes give; of RECORD_UNKNOWN_KIND where no kind has its kind byte; and of RECORD_FRAMING where
its framing fails (R28, R30, R31). That the write is counted before the record is taken, so that a RESET_SESSION clears it,
is the model's choice (log 39), and so is that a flash at an operation of its own takes the WRITE DISABLE of R8 (log 38). -/
def Obligations.AperturePageProgramsAreRecords : Prop :=
  ∀ (addr : Address) (data : List Byte) (s : State), s.laneFree = true → s.windowOf addr.toNat = .aperture →
    let count := min 256 data.length
    let byte := fun (o : Nat) => match (List.range data.length).reverse.find? (fun k => k % 256 = o) with
      | some k => data.getD k 0
      | none => 0
    let size := (byte 2).toNat + 256 * (byte 3).toNat
    let body := (List.range size).map (fun o => byte (4 + o))
    let framed := addr.toNat % 256 = 0 ∧ 4 ≤ count ∧ size ≤ count - 4
    ∃ u t : State, u = { s.passed [] with
        shadow := false
        flash := if s.occupied then s.flash else s.flash.setLatch false
        counters := modifyAt s.counters 4 CounterSet.addWrite
        watches := s.watches.map (fun (w : Watch) =>
          if (w.kind = .write ∨ w.kind = .both) ∧ addr &&& w.mask = w.base &&& w.mask then
            { w with count := satSucc 65535 w.count } else w) } ∧
      exec (.pageProgram .whole addr data) s = .next t ∧ t.flash = u.flash ∧ t.flash.cells = s.flash.cells ∧
      t = State.settle (u.takeProgram (addr.toNat % 256) data) ∧
      (¬framed → exec (.recordFraming (BitVec.ofNat 8 addr.toNat) data) u = .next t) ∧
      (framed →
        (∀ k, kindOf (byte 0) = some k → exec (k.command (byte 1) body) u = .next t) ∧
        (kindOf (byte 0) = none → exec (.recordUnknownKind (byte 0) (byte 1) body) u = .next t))

/-- A lane command given in two parts, the select with the first bytes and then the other bytes with the deselect, or in
three, with bytes between, does what the whole transaction does, on a lane with no transaction in progress and lines that
follow the state. That a transaction may be given in parts is the model's form of R1 (log 1). -/
def Obligations.SplitTransactionsDoWhatWholeOnesDo : Prop :=
  ∀ s : State, s.upstream = none → s.settle = s →
    ∀ (a : Address) (n k m b : Nat) (d e f : List Byte) (c : Byte),
    (∀ p ∈ [(Instr.read .opens a n, Instr.read .closes a m, Instr.read .whole a (n + m)),
      (.fastRead .opens a n, .fastRead .closes a m, .fastRead .whole a (n + m)),
      (.pageProgram .opens a d, .pageProgram .closes a e, .pageProgram .whole a (d ++ e)),
      (.sectorErase .opens a, .sectorErase .closes a, .sectorErase .whole a),
      (.blockErase .opens a, .blockErase .closes a, .blockErase .whole a),
      (.chipErase .opens, .chipErase .closes, .chipErase .whole),
      (.writeEnable .opens, .writeEnable .closes, .writeEnable .whole),
      (.writeDisable .opens, .writeDisable .closes, .writeDisable .whole),
      (.readStatus .opens n b, .readStatus .closes m (b - n), .readStatus .whole (n + m) b),
      (.readId .opens n, .readId .closes m, .readId .whole (n + m)),
      (.unrecognisedCommand .opens c d, .unrecognisedCommand .closes c e, .unrecognisedCommand .whole c (d ++ e)),
      (.transactionDropped .opens, .transactionDropped .closes, .transactionDropped .whole)],
    ∃ u t, exec p.1 s = .next u ∧ exec p.2.1 u = .next t ∧ exec p.2.2 s = .next t) ∧
    (∀ p ∈ [(Instr.read .opens a n, Instr.read .more a k, Instr.read .closes a m, Instr.read .whole a (n + k + m)),
      (.fastRead .opens a n, .fastRead .more a k, .fastRead .closes a m, .fastRead .whole a (n + k + m)),
      (.pageProgram .opens a d, .pageProgram .more a e, .pageProgram .closes a f, .pageProgram .whole a (d ++ e ++ f)),
      (.sectorErase .opens a, .sectorErase .more a, .sectorErase .closes a, .sectorErase .whole a),
      (.blockErase .opens a, .blockErase .more a, .blockErase .closes a, .blockErase .whole a),
      (.chipErase .opens, .chipErase .more, .chipErase .closes, .chipErase .whole),
      (.writeEnable .opens, .writeEnable .more, .writeEnable .closes, .writeEnable .whole),
      (.writeDisable .opens, .writeDisable .more, .writeDisable .closes, .writeDisable .whole),
      (.readStatus .opens n b, .readStatus .more k (b - n), .readStatus .closes m (b - n - k),
        .readStatus .whole (n + k + m) b),
      (.readId .opens n, .readId .more k, .readId .closes m, .readId .whole (n + k + m)),
      (.unrecognisedCommand .opens c d, .unrecognisedCommand .more c e, .unrecognisedCommand .closes c f,
        .unrecognisedCommand .whole c (d ++ e ++ f)),
      (.transactionDropped .opens, .transactionDropped .more, .transactionDropped .closes, .transactionDropped .whole)],
    ∃ u v t, exec p.1 s = .next u ∧ exec p.2.1 u = .next v ∧ exec p.2.2.1 v = .next t ∧ exec p.2.2.2 s = .next t)

/-! ## Records -/

/-- A program whose framing fails is refused with FRAMING: with fewer than 4 bytes programmed, a start not at offset 0, or a
body length beyond the bytes programmed, of which there are at most 256, a later byte at a page offset replacing an earlier
one (R28, R30). The tag written is byte 1 of the page so collected, or 0 with fewer than two bytes; where the program never
reached that byte the spec gives no value and the tag is a free value (log 23). A record of an unknown kind is refused with
UNKNOWN_KIND; the kind bytes are those of 03 §3.6. The tag, the result and the count are written and nothing else changes (R30,
R31, R33). So is every record answered: its tag and result become the last ones, the count goes up by 1, from 65535 to 0
(R33), and after QUEUED a job that is due starts (R122). -/
def Obligations.UnframedAndUnknownRecords : Prop :=
  (∀ (offset : Byte) (data : List Byte) (s : State), s.recordsReach = true →
    let last := fun (o : Nat) => ((List.range data.length).reverse.find? (fun k => (offset.toNat + k) % 256 = o)).map
      (fun k => data.getD k 0)
    let size := fun (o : Nat) => match last o with | some b => b.toNat | none => 0
    data.length < 4 ∨ offset ≠ 0 ∨ min 256 data.length - 4 < size 2 + 256 * size 3 →
    exec (.recordFraming offset data) s =
      .next (if data.length < 2 then s.answered 0 .framing
        else match last 1 with
          | some b => s.answered b .framing
          | none => State.answered { s with draws := s.draws + 1 } (Config.collectedByte s.draws) .framing)) ∧
  (∀ (kind tag : Byte) (body : List Byte) (s : State), s.recordsReach = true → kindOf kind = none →
    exec (.recordUnknownKind kind tag body) s = .next (s.answered tag .unknownKind)) ∧
  (∀ (s : State) (tag : Byte) (r : Result),
    let u := { s with intake := { s.intake with
      lastTag := tag, lastResult := r, recordCount := (s.intake.recordCount + 1) % 65536 } }
    s.answered tag r = State.settle (if r = .queued then u.startDue else u)) ∧
  (∀ b : Byte, kindOf b = (([(0x01, .sessionOpen), (0x02, .resetSession), (0x03, .mask), (0x04, .retire), (0x10, .geometry),
      (0x11, .format), (0x12, .plane), (0x20, .frameOpen), (0x21, .zones), (0x22, .frameClose), (0x23, .frameAbandon),
      (0x28, .rollback), (0x2C, .watch), (0x30, .commit), (0x31, .park), (0x32, .scan), (0x40, .keyStage),
      (0x41, .keyMore), (0x42, .keyStore), (0x43, .keyErase), (0x44, .keyUnstage), (0x50, .region), (0x5F, .closeOut)] :
      List (Byte × Kind)).find? (fun p => decide (p.1 = b))).map Prod.snd)

/-- Outside OPEN a record of a kind that the session state does not take is refused with NO_SESSION, LAPSED or CLOSED
and changes nothing but the Intake's tag, result and count (R31, R33). -/
def Obligations.RecordsOutsideOpenAreRefused : Prop :=
  ∀ (k : Kind) (tag : Byte) (body : List Byte) (s : State), s.recordsReach = true →
    (s.session.state = .dormant → k ≠ .sessionOpen → k ≠ .mask → k ≠ .retire →
      exec (k.command tag body) s = .next (s.answered tag .noSession)) ∧
    (s.session.state = .lapsed → k ≠ .sessionOpen → exec (k.command tag body) s = .next (s.answered tag .lapsed)) ∧
    (s.session.state = .closed → k ≠ .mask → k ≠ .retire →
      exec (k.command tag body) s = .next (s.answered tag .closed))

/-- A record of a kind that its session state takes, with a body shorter than its kind's fields, is refused with RANGE and
changes nothing else, in OPEN and also SESSION_OPEN in DORMANT and LAPSED and MASK in DORMANT and CLOSED (R31, R32); that
this check comes before the check of a CLOSE_OUT job in progress is the model's reading (log 15). The shortest bodies are
those of 03 §3.6, for the varying kinds with one data unit (R32). A record command that cannot reach the part, because the
mode is not COMMISSIONING, the lane is not served, or a transaction is in progress, changes nothing (R1, R19, R42; the
model's reading of an event whose condition does not hold, log 2). -/
def Obligations.ShortAndUnreachedRecordsAreJudgedFirst : Prop :=
  (∀ (k : Kind) (tag : Byte) (body : List Byte) (s : State),
    (s.inOpen = true → body.length < k.bodyLength →
      exec (k.command tag body) s = .next (s.answered tag .range)) ∧
    (s.recordsReach = true → body.length < k.bodyLength →
      (k = .sessionOpen ∧ (s.session.state = .dormant ∨ s.session.state = .lapsed)) ∨
        (k = .mask ∧ (s.session.state = .dormant ∨ s.session.state = .closed)) →
      exec (k.command tag body) s = .next (s.answered tag .range)) ∧
    (s.recordsReach = false → exec (k.command tag body) s = .next s.settle)) ∧
  ([.sessionOpen, .resetSession, .mask, .retire, .geometry, .format, .plane, .frameOpen, .zones, .frameClose, .frameAbandon,
      .rollback, .watch, .commit, .park, .scan, .keyStage, .keyMore, .keyStore, .keyErase, .keyUnstage, .region,
      .closeOut] : List Kind).map Kind.bodyLength =
    [11, 0, 2, 0, 2, 2, 13, 6, 8, 1, 1, 0, 8, 0, 0, 0, 5, 1, 0, 1, 0, 1, 0]

/-- SESSION_OPEN in DORMANT, OPEN or LAPSED: with a field out of the ranges of R20 it is refused with RANGE; else it enters
OPEN with the station, the clock and its opening stamp, the timeout and the lamp codes, and publish-seen cleared from DORMANT
alone (R20, R24). -/
def Obligations.SessionOpenSetsTheSession : Prop :=
  ∀ (tag : Byte) (body : List Byte) (s : State), s.recordsReach = true → s.session.state ≠ .closed → 11 ≤ body.length →
    let b := byteAt body
    let legal := 1 ≤ b 0 ∧ b 3 ≤ 23 ∧ b 4 ≤ 59 ∧ b 5 ≤ 59 ∧ b 6 ≤ 7 ∧ b 7 ≤ 9 ∧ b 8 ≤ 1 ∧ b 9 ≤ 3 ∧ b 10 ≤ 3
    (¬legal → exec (.sessionOpen tag body) s = .next (s.answered tag .range)) ∧
    (legal →
      let day := b 1 + 256 * b 2
      let secs := b 3 * 3600 + b 4 * 60 + b 5
      exec (.sessionOpen tag body) s = .next (State.answered { s with session := { s.session with
        state := .opened, station := b 0, timeoutTens := b 6, timeoutOnes := b 7, prescale := b 8, lampRate := b 9,
        lampDuration := b 10, day := day, seconds := secs, timeValid := true, openDay := day, openSeconds := secs,
        publishSeen := if s.session.state = .dormant then false else s.session.publishSeen } } tag .accepted))

/-- RESET_SESSION in OPEN: FILLING and QUEUED frames are gone, a COMPUTING frame is marked discard and a waiting one is
discarded at once, the history's stack, the watches, the counters and a staging buffer that is not HELD are cleared; and
nothing else changes but the Intake: the grid, the jobs, the conditions, the keys, the region, the clock and its opening
stamp, the timeout and lamp settings and the rest of the session stand (R27, R34, R66, R68, R85, R97, R115, R157). What a
buffer that becomes FREE then holds is the model's choice (log 26). -/
def Obligations.ResetSessionClearsTheWork : Prop :=
  ∀ (tag : Byte) (body : List Byte) (s : State), s.inOpen = true →
    let left := fun f : Frame => match f.state with
      | .free => f
      | .filling => Frame.empty
      | .queued => Frame.empty
      | .solving => { f with discard := true }
    let cleared : State := { s with
      frame0 := left s.frame0, frame1 := left s.frame1, history := { s.history with stack := [] }
      watches := List.replicate 4 Watch.off, counters := List.replicate 10 CounterSet.zero
      staging := if s.staging.state = .filling ∨ s.staging.state = .complete then Staging.idle else s.staging }
    (s.engine.state ≠ .publishWait → exec (.resetSession tag body) s = .next (cleared.answered tag .accepted)) ∧
    (s.engineSound → s.engine.state = .publishWait →
      ∃ i, (s.frame i).state = .solving ∧
        exec (.resetSession tag body) s = .next (State.answered (State.setFrame { cleared with
          engine := { state := .idle, results := [], largest := 0 }
          intake := { s.intake with outcomes := modifyAt s.intake.outcomes 8 (fun e =>
            { tag := (s.frame i).tag, outcome := .discarded, count := (e.count + 1) % 256, ringGen := 0 }) } }
          i Frame.empty) tag .accepted))

/-- MASK replaces the mask set by the maskable bits sent and answers TRUNCATED where others were set; RETIRE removes the
head record, or is refused with QUEUE_EMPTY (R180, R182). A report is taken in the steps of R179: a STORE_UNCORRECTED whose
sector is a known fault is ANCILLARY, and any other adds its sector, the oldest of eight giving way; a report whose class and
merge key a queued record has merges into it, adding one to its repeat count up to 255 with its INDIRECT and PARK_NOT_QUEUED
marks; else, with fewer than 16 records, a new one stands at the tail with the next sequence number, the line time and the
mode; else the newest record takes OVERFLOW, with PARK_NOT_QUEUED where the lost report carried it (R178, R179). -/
def Obligations.MaskAndRetire : Prop :=
  (∀ (tag : Byte) (body : List Byte) (s : State), s.recordsReach = true → s.session.state ≠ .lapsed →
    (2 ≤ body.length →
      let m : BitVec 16 := BitVec.ofNat 16 (fieldAt body 0 2)
      exec (.mask tag body) s = .next (State.answered { s with conds := { s.conds with mask := m &&& 0x07DC } } tag
        (if m &&& ~~~(0x07DC : BitVec 16) = 0 then .accepted else .truncated))) ∧
    (s.conds.records = [] → exec (.retire tag body) s = .next (s.answered tag .queueEmpty)) ∧
    (∀ r rest, s.conds.records = r :: rest →
      exec (.retire tag body) s = .next (State.answered { s with conds := { s.conds with records := rest } } tag .accepted))) ∧
  (∀ (s : State) (r : Report),
    let same := fun c : CondRecord => c.cls = r.cls ∧
      (r.cls = .descriptor ∨ r.cls = .warning ∨ r.cls = .sessionLapse ∨ (r.cls = .keyDamage ∧ c.slot = r.slot) ∨
        (r.cls ≠ .keyDamage ∧ c.address.map sectorOf = r.address.map sectorOf))
    ∃ q ancillary, s.raise r = { s with conds := q } ∧ q.mask = s.conds.mask ∧
      (r.cls ≠ .storeUncorrected ∨ r.address = none → ancillary = false ∧ q.known = s.conds.known) ∧
      (∀ a, r.cls = .storeUncorrected → r.address = some a →
        (sectorOf a ∈ s.conds.known → ancillary = true ∧ q.known = s.conds.known) ∧
        (sectorOf a ∉ s.conds.known → ancillary = false ∧
          q.known = s.conds.known.drop (s.conds.known.length - 7) ++ [sectorOf a])) ∧
      (∀ pre c post, s.conds.records = pre ++ c :: post → (∀ x ∈ pre, ¬same x) → same c →
        q.counter = s.conds.counter ∧ q.records = pre ++ { c with
          repeats := if c.repeats < 255 then c.repeats + 1 else c.repeats
          indirect := c.indirect || r.indirect, parkNotQueued := c.parkNotQueued || r.parkNotQueued } :: post) ∧
      ((∀ x ∈ s.conds.records, ¬same x) → s.conds.records.length < 16 →
        q.counter = (s.conds.counter + 1) % 65536 ∧ q.records = s.conds.records ++ [{
          seq := (s.conds.counter + 1) % 65536, cls := r.cls, indirect := r.indirect, ancillary := ancillary,
          overflow := false, parkNotQueued := r.parkNotQueued, address := r.address, slot := r.slot, command := r.command,
          repeats := 1, timeValid := s.session.timeValid,
          day := if s.session.timeValid = true then s.session.day else 0,
          seconds := if s.session.timeValid = true then s.session.seconds else 0, mode := s.mode }]) ∧
      ((∀ x ∈ s.conds.records, ¬same x) → ∀ init x, s.conds.records = init ++ [x] → 15 ≤ init.length →
        q.counter = s.conds.counter ∧ q.records = init ++ [{ x with
          overflow := true, parkNotQueued := x.parkNotQueued || r.parkNotQueued }]))

/-- GEOMETRY in OPEN is judged in the order of R40, after the check of R175; accepted, it sets the geometry, clears the
codes, the marks, the history's stack, the report and the class map, and takes a new generation (R40, R43, R175). -/
def Obligations.GeometryStartsANewGrid : Prop :=
  ∀ (tag : Byte) (body : List Byte) (s : State), s.inOpen = true → 2 ≤ body.length →
    let x := byteAt body 0
    let y := byteAt body 1
    exec (.geometry tag body) s =
      .next (if s.closingOut = true then s.answered tag .busy
        else if x < 1 ∨ 128 < x ∨ y < 1 ∨ 72 < y then s.answered tag .range
        else if 4294967295 ≤ s.grid.genMark then s.answered tag .range
        else if s.frame0.state ≠ .free ∨ s.frame1.state ≠ .free then s.answered tag .busy
        else if s.grid.lock ≠ none then s.answered tag .busy
        else State.answered { s with
          grid := { s.grid with
            geometry := some { cols := x, rows := y }
            codes := List.replicate (3 * (x * y)) 0
            marks := List.replicate (3 * (x * y)) false
            generation := s.grid.genMark + 1
            genMark := s.grid.genMark + 1 }
          history := { s.history with stack := [] }
          report := none
          classMap := List.replicate (x * y) none } tag .accepted)

/-- FORMAT in OPEN is judged in the order of R50, after the check of R175; accepted, it sets the width and the shift, at
most 3, and takes a new generation (R43, R50, R175). PLANE in OPEN is refused with RANGE for any field out of range;
accepted, it replaces its plane's record and takes no generation (R48). -/
def Obligations.FormatAndPlaneSetTheirFields : Prop :=
  (∀ (tag : Byte) (body : List Byte) (s : State), s.inOpen = true → 2 ≤ body.length →
    let w := byteAt body 0
    let sh := byteAt body 1
    exec (.format tag body) s =
      .next (if s.closingOut = true then s.answered tag .busy
        else if w ≠ 8 ∧ w ≠ 6 then s.answered tag .range
        else if 4294967295 ≤ s.grid.genMark then s.answered tag .range
        else if s.grid.lock ≠ none then s.answered tag .busy
        else State.answered { s with
          grid := { s.grid with
            width := w
            shift := if sh ≤ 3 then sh else 3
            generation := s.grid.genMark + 1
            genMark := s.grid.genMark + 1 } } tag (if 3 < sh then .truncated else .accepted))) ∧
  (∀ (tag : Byte) (body : List Byte) (s : State), s.inOpen = true → 13 ≤ body.length →
    let legal := byteAt body 0 ≤ 2 ∧ fieldAt body 1 2 ≤ 1023 ∧ 1 ≤ fieldAt body 3 2 ∧ fieldAt body 3 2 ≤ 65534 ∧
      1 ≤ fieldAt body 5 2 ∧ fieldAt body 5 2 ≤ 2047 ∧ fieldAt body 7 2 ≤ 4095 ∧ fieldAt body 9 2 ≤ 4095 ∧
      1 ≤ byteAt body 11 ∧ byteAt body 11 ≤ 127 ∧ byteAt body 12 ≤ 1
    let r : PlaneRecord :=
      { gray := fieldAt body 1 2, target := fieldAt body 3 2, slope := fieldAt body 5 2, tolLo := fieldAt body 7 2,
        tolHi := fieldAt body 9 2, limit := byteAt body 11,
        rounding := if byteAt body 12 = 0 then .nearest else .towardZero }
    (¬legal → exec (.plane tag body) s = .next (s.answered tag .range)) ∧
    (legal → exec (.plane tag body) s = .next (State.answered { s with
      grid := { s.grid with
        low := if byteAt body 0 = 0 then some r else s.grid.low
        mid := if byteAt body 0 = 1 then some r else s.grid.mid
        high := if byteAt body 0 = 2 then some r else s.grid.high } } tag .accepted)))

/-- FRAME_OPEN in OPEN is judged in the order of R55, after the check of R175; accepted, it takes buffer 0 if it is FREE
and buffer 1 otherwise, FILLING, with no value present (R55, R56, R175). -/
def Obligations.FrameOpenTakesAFreeBuffer : Prop :=
  ∀ (tag : Byte) (body : List Byte) (s : State), s.inOpen = true → 6 ≤ body.length →
    let r : Rect := { x0 := byteAt body 2, y0 := byteAt body 3, w := byteAt body 4, h := byteAt body 5 }
    (s.closingOut = true → exec (.frameOpen tag body) s = .next (s.answered tag .busy)) ∧
    (s.closingOut = false →
      (2 < byteAt body 1 → exec (.frameOpen tag body) s = .next (s.answered tag .range)) ∧
      (∀ p : Plane, byteAt body 1 = p.index →
        let f : Frame :=
          { state := .filling, tag := body.getD 0 0, plane := p, rect := r, slots := List.replicate (r.w * r.h) none,
            snapshot := none, discard := false }
        exec (.frameOpen tag body) s =
          .next (if s.grid.geometry = none ∨ s.grid.planeRecord p = none then s.answered tag .notReady
            else if r.w = 0 ∨ r.h = 0 ∨ s.grid.cols < r.x0 + r.w ∨ s.grid.rows < r.y0 + r.h then s.answered tag .range
            else if s.frame0.state = .filling ∨ s.frame1.state = .filling then s.answered tag .frameHeld
            else if s.frame0.state = .free then State.answered { s with frame0 := f } tag .accepted
            else if s.frame1.state = .free then State.answered { s with frame1 := f } tag .accepted
            else s.answered tag .queueFull)))

/-- ZONES in OPEN is judged in the order of R57; accepted, slot offset + j takes value j, values beyond the rectangle are
lost with TRUNCATED, and every other slot stands (R57, R58). -/
def Obligations.ZonesFillTheirSlots : Prop :=
  ∀ (tag : Byte) (body : List Byte) (s : State), s.inOpen = true → 8 ≤ body.length →
    let off := fieldAt body 2 2
    let count := fieldAt body 4 2
    ((∀ i, (s.frame i).state = .filling → (s.frame i).tag ≠ body.getD 0 0) →
      exec (.zones tag body) s = .next (s.answered tag .noFrame)) ∧
    (∀ i, (s.frame i).state = .filling → (i = true → s.frame0.state ≠ .filling) → (s.frame i).tag = body.getD 0 0 →
      let f := s.frame i
      (count = 0 ∨ 120 < count ∨ body.length < 6 + 2 * count ∨ f.rect.w * f.rect.h ≤ off →
        exec (.zones tag body) s = .next (s.answered tag .range)) ∧
      (1 ≤ count → count ≤ 120 → 6 + 2 * count ≤ body.length → off < f.rect.w * f.rect.h →
        ∃ slots, exec (.zones tag body) s = .next (State.answered (s.setFrame i { f with slots := slots }) tag
            (if f.rect.w * f.rect.h < off + count then .truncated else .accepted)) ∧
          slots.length = f.slots.length ∧
          ∀ k, k < slots.length → slots[k]? =
            if off ≤ k ∧ k < off + count then some (some (fieldAt body (6 + 2 * (k - off)) 2)) else f.slots[k]?))

/-- FRAME_CLOSE and FRAME_ABANDON in OPEN reach the FILLING frame with their tag alone; a close takes the snapshot of the
plane's record with the effective target and queues the frame, an abandon frees the buffer (R60, R61, R62). Where the IDLE
engine has not yet taken the frame closed before, it takes it at this close, so that frames are solved in the order of their
closing (R63; the moment is the model's, log 13). What an abandoned buffer then holds is the model's choice (log 26). -/
def Obligations.FramesCloseAndAreAbandoned : Prop :=
  ∀ (tag : Byte) (body : List Byte) (s : State), s.inOpen = true → 1 ≤ body.length →
    ((∀ i, (s.frame i).state = .filling → (s.frame i).tag ≠ body.getD 0 0) →
      exec (.frameClose tag body) s = .next (s.answered tag .noFrame) ∧
      exec (.frameAbandon tag body) s = .next (s.answered tag .noFrame)) ∧
    (∀ i, (s.frame i).state = .filling → (i = true → s.frame0.state ≠ .filling) → (s.frame i).tag = body.getD 0 0 →
      let f := s.frame i
      let before := if s.engine.state = .idle ∧ (s.frame (!i)).state = .queued then
          { s.setFrame (!i) { s.frame (!i) with state := .solving } with
            engine := { state := .computing, results := [], largest := 0 } }
        else s
      exec (.frameClose tag body) s = .next (State.answered (before.setFrame i { f with
        state := .queued
        snapshot := (s.grid.planeRecord f.plane).map (fun r =>
          { tEff := (r.target * s.scale + 128) / 256, slope := r.slope, tolLo := r.tolLo, tolHi := r.tolHi,
            limit := r.limit, rounding := r.rounding }) }) tag .accepted) ∧
      exec (.frameAbandon tag body) s = .next (State.answered (s.setFrame i Frame.empty) tag .accepted))

/-- ROLLBACK in OPEN is judged in the order of R92, after the check of R175 (R92, R175). A ROLLBACK that follows the publish
at a frame's end of computing restores every code and mark the publish changed, removes its entry, and takes a new generation
(R79, R93). -/
def Obligations.RollbackUndoesThePublish : Prop :=
  (∀ (tag : Byte) (body : List Byte) (s : State), s.inOpen = true →
    exec (.rollback tag body) s =
      .next (if s.closingOut = true then s.answered tag .busy
        else if s.history.stack = [] then s.answered tag .historyEmpty
        else if s.grid.lock ≠ none then s.answered tag .busy
        else if 4294967295 ≤ s.grid.genMark then s.answered tag .range
        else s.popHistory.answered tag .accepted)) ∧
  (∀ (tag : Byte) (body : List Byte) (s t : State) (i : Bool), s.inOpen = true → s.gridSound → s.engineSound →
    s.engine.state = .computing → s.frameIn .solving = some i → (s.frame i).discard = false → s.gridFree = true →
    s.grid.genMark + 1 < 4294967295 → s.closingOut = false → exec .computingEnd s = .next t →
    ∃ u, exec (.rollback tag body) t = .next u ∧ u.intake.lastResult = .accepted ∧
      u.grid.codes = s.grid.codes ∧ u.grid.marks = s.grid.marks ∧ u.grid.generation = s.grid.genMark + 2 ∧
      u.history.stack = t.history.stack.tail ∧ u.report = t.report ∧ u.classMap = t.classMap ∧
      u.grid.geometry = s.grid.geometry ∧ u.grid.width = s.grid.width)

/-- WATCH in OPEN sets the named watch and clears its count and last generation, or is refused with RANGE (R112). -/
def Obligations.WatchSetsOneMonitor : Prop :=
  ∀ (tag : Byte) (body : List Byte) (s : State), s.inOpen = true → 8 ≤ body.length →
    (3 < byteAt body 0 ∨ 3 < byteAt body 1 → exec (.watch tag body) s = .next (s.answered tag .range)) ∧
    (byteAt body 0 ≤ 3 → ∀ k : WatchKind, byteAt body 1 = k.code →
      exec (.watch tag body) s = .next (State.answered { s with
        watches := s.watches.set (byteAt body 0)
          { kind := k, base := BitVec.ofNat 24 (fieldAt body 2 3), mask := BitVec.ofNat 24 (fieldAt body 5 3), count := 0,
            lastGen := 0 } } tag .accepted))

/-- COMMIT, PARK and SCAN in OPEN are judged in their orders, after the check of R175, and queue their job at the tail with
the record's tag (R51, R123, R175); where no job is in progress and none waits, it is in progress in the same step: that "at
once" of R122 is within the step, beside the table's own row JOB_START, is the model's reading (log 13). -/
def Obligations.CommitParkAndScanQueueTheirJobs : Prop :=
  (∀ (tag : Byte) (body : List Byte) (s : State), s.inOpen = true →
    (∀ p ∈ [(Instr.commit tag body, JobKind.commitGrid), (Instr.park tag body, JobKind.park)],
      exec p.1 s =
        .next (if s.closingOut = true then s.answered tag .busy
          else if s.grid.geometry = none then s.answered tag .notReady
          else if 4 ≤ s.seq.waiting.length then s.answered tag .queueFull
          else State.answered { s with seq := { s.seq with
            waiting := s.seq.waiting ++ [{ kind := p.2, tag := tag, slot := 0, sector := 0 }] } } tag .queued)) ∧
    exec (.scan tag body) s =
      .next (if s.closingOut = true then s.answered tag .busy
        else if 4 ≤ s.seq.waiting.length then s.answered tag .queueFull
        else State.answered { s with seq := { s.seq with
          waiting := s.seq.waiting ++ [{ kind := .scan, tag := tag, slot := 0, sector := 0 }] } } tag .queued)) ∧
  (∀ (tag : Byte) (body : List Byte) (s : State) (l : Layout), s.inOpen = true → s.layout = some l →
    s.seq.active = none → s.seq.waiting = [] → s.grid.geometry ≠ none →
    ∀ p ∈ [(Instr.commit tag body, JobKind.commitGrid), (Instr.park tag body, JobKind.park),
        (Instr.scan tag body, JobKind.scan)],
      ∃ t a, exec p.1 s = .next t ∧ t.seq.active = some a ∧ a.job = { kind := p.2, tag := tag, slot := 0, sector := 0 } ∧
        t.seq.waiting = [] ∧ t.grid.lock = (if p.2 = .scan then s.grid.lock else some p.2))

/-- KEY_STAGE, KEY_MORE and KEY_UNSTAGE in OPEN fill and clear the staging buffer as R158, R159 and R160 give, with each
chunk placed behind the bytes filled and cut at the total. -/
def Obligations.StagingFillsInOrder : Prop :=
  ∀ (tag : Byte) (body : List Byte) (s : State), s.inOpen = true →
    (5 ≤ body.length →
      let slot := byteAt body 0
      let cls := byteAt body 1
      let total := fieldAt body 2 2
      let n := min total (body.length - 4)
      exec (.keyStage tag body) s =
        .next (if s.staging.state ≠ .idle then s.answered tag .stageState
          else if 15 < slot ∨ cls < 1 ∨ 15 < cls ∨ total < 16 ∨ 448 < total ∨ 244 < body.length then s.answered tag .range
          else if s.classTaken slot cls = true then s.answered tag .classTaken
          else State.answered { s with staging :=
            { state := if n < total then .filling else .complete, slot := slot, cls := cls, total := total, filled := n,
              payload := (body.drop 4).take n ++ List.replicate (448 - n) 0 } } tag
            (if total < body.length - 4 then .truncated else .accepted))) ∧
    (1 ≤ body.length →
      let g := s.staging
      let n := min (g.total - g.filled) body.length
      exec (.keyMore tag body) s =
        .next (if g.state ≠ .filling then s.answered tag .stageState
          else State.answered { s with staging := { g with
            state := if g.filled + n < g.total then .filling else .complete
            filled := g.filled + n
            payload := g.payload.take g.filled ++ body.take n ++ g.payload.drop (g.filled + n) } } tag
            (if g.total < g.filled + body.length then .truncated else .accepted))) ∧
    exec (.keyUnstage tag body) s =
      .next (if s.staging.state = .held then s.answered tag .stageState
        else State.answered { s with staging := Staging.idle } tag .accepted)

/-- KEY_STORE and KEY_ERASE in OPEN are judged in the orders of R161 and R164, after the check of R175; accepted, the slot
is PENDING for the job, which is queued with the record's tag, and a store makes the buffer HELD (R161, R164, R175). -/
def Obligations.KeyJobsMakeTheirSlotPending : Prop :=
  ∀ (tag : Byte) (body : List Byte) (s : State), s.inOpen = true →
    (
      let g := s.staging
      let e := s.keyEntry g.slot
      exec (.keyStore tag body) s =
        .next (if s.closingOut = true then s.answered tag .busy
          else if g.state ≠ .complete then s.answered tag .stageState
          else if s.closedFlag = true ∧ e.state ≠ .empty then s.answered tag .slotLocked
          else if e.state = .pending then s.answered tag .busy
          else if s.classTaken g.slot g.cls = true then s.answered tag .classTaken
          else if 4 ≤ s.seq.waiting.length then s.answered tag .queueFull
          else State.answered { s with
            keys := s.keys.set g.slot { e with state := .pending, cls := g.cls, prior := e.state, erasing := false }
            staging := { g with state := .held }
            seq := { s.seq with
              waiting := s.seq.waiting ++ [{ kind := .keyStore, tag := tag, slot := g.slot, sector := 0 }] } }
            tag .queued)) ∧
    (1 ≤ body.length →
      let slot := byteAt body 0
      let e := s.keyEntry slot
      exec (.keyErase tag body) s =
        .next (if s.closingOut = true then s.answered tag .busy
          else if 15 < slot then s.answered tag .range
          else if s.closedFlag = true then s.answered tag .slotLocked
          else if e.state = .empty then s.answered tag .range
          else if e.state = .pending then s.answered tag .busy
          else if 4 ≤ s.seq.waiting.length then s.answered tag .queueFull
          else State.answered { s with
            keys := s.keys.set slot
              { e with state := .pending, cls := if e.state = .present then e.cls else 0, prior := e.state, erasing := true }
            seq := { s.seq with
              waiting := s.seq.waiting ++ [{ kind := .keyErase, tag := tag, slot := slot, sector := 0 }] } }
            tag .queued))

/-- REGION and CLOSE_OUT in OPEN are judged in the orders of R171 and R174: CLOSE_OUT is refused with PRECONDITION and
the number of the first of the seven that fails, or queues its job with the index at 0 (R33, R171, R174, R175). -/
def Obligations.RegionAndCloseOutAreJudged : Prop :=
  ∀ (tag : Byte) (body : List Byte) (s : State), s.inOpen = true →
    (1 ≤ body.length →
      let slot := byteAt body 0
      exec (.region tag body) s =
        .next (if s.closingOut = true then s.answered tag .busy
          else if 7 < slot then s.answered tag .range
          else if s.closedFlag = true then s.answered tag .closed
          else if s.session.publishSeen = true ∧
              ((s.region.directory.getD slot none).map (fun h => h.scale)).getD s.scale ≠ s.scale then
            s.answered tag .gridStarted
          else if 4 ≤ s.seq.waiting.length then s.answered tag .queueFull
          else State.answered { s with seq := { s.seq with
            waiting := s.seq.waiting ++ [{ kind := .regionSelect, tag := tag, slot := slot, sector := 0 }] } }
            tag .queued)) ∧
    (
      let refused := fun n => State.answered { s with intake := { s.intake with closeOutIndex := n } } tag .precondition
      exec (.closeOut tag body) s =
        .next (if s.closingOut = true then s.answered tag .busy
          else if s.seq.active ≠ none ∨ s.seq.waiting ≠ [] then refused 1
          else if s.frame0.state ≠ .free ∨ s.frame1.state ≠ .free then refused 2
          else if s.region.selected = none then refused 3
          else if (match s.region.classes with
              | some cs => cs.all (fun c => s.keys.any (fun e => decide (e.state = .present ∧ e.cls = c)))
              | none => false) = false then refused 4
          else if s.keys.any (fun e => decide (e.state = .damaged ∨ e.state = .pending)) = true then refused 5
          else if s.clean = false ∨ s.latest.map (fun x => x.record.poisoned) ≠ some 0 then refused 6
          else if s.grid.markCount ≠ 0 then refused 7
          else State.answered { s with
            intake := { s.intake with closeOutIndex := 0 }
            seq := { s.seq with
              waiting := s.seq.waiting ++ [{ kind := .closeOut, tag := tag, slot := 0, sector := 0 }] } } tag .queued))

/-! ## The Solve Engine -/

/-- SOLVE_TAKE_FRAME: an IDLE engine takes the QUEUED frame and is COMPUTING with no results. COMPUTING_END: a frame with the
discard mark, or that can take no generation, is freed with outcome DISCARDED, a QUEUED frame in the other buffer is taken at
once, and nothing else changes; any other enters PUBLISH_WAIT with its results, and publishes at once where the grid is free,
as PUBLISH does (R63, R68, R69, R77, R78, R85, R86). The results are those of the frame's slots in order under its snapshot,
each as ZonesAreSolvedByTheRules gives it, and the largest adjustment is the greatest of theirs, 0 for none (R69, R70, R76).
That a SOLVE_TAKE_FRAME with no frame to take, or a COMPUTING_END while nothing is computed, changes nothing is the model's
choice (log 2), and so is what an emptied buffer holds (log 26). -/
def Obligations.TheEngineTakesAndSolvesFrames : Prop :=
  (∀ (s : State) (i : Bool), s.engine.state = .idle → s.frameIn .queued = some i →
    exec .solveTakeFrame s = .next (State.settle { s.setFrame i { s.frame i with state := .solving } with
      engine := { state := .computing, results := [], largest := 0 } })) ∧
  (∀ s : State, s.engine.state ≠ .idle ∨ s.frameIn .queued = none → exec .solveTakeFrame s = .next s.settle) ∧
  (∀ s : State, s.engine.state ≠ .computing → exec .computingEnd s = .next s.settle) ∧
  (∀ (s : State) (i : Bool), s.engine.state = .computing → s.frameIn .solving = some i →
    (s.frame i).discard = false → s.grid.genMark < 4294967295 →
    let u := { s with engine := { state := .publishWait, results := (solveFrame (s.frame i)).1,
                                  largest := (solveFrame (s.frame i)).2 } }
    exec .computingEnd s = exec .publish u ∧ (s.gridFree = false → exec .computingEnd s = .next u.settle)) ∧
  (∀ (s : State) (i : Bool), s.engine.state = .computing → s.frameIn .solving = some i →
    (s.frame i).discard = false → s.grid.genMark < 4294967295 → s.gridFree = true → s.frameIn .queued = none →
    ∃ t, exec .computingEnd s = .next t ∧ (t.frame i).state = .free ∧ t.engine.state = .idle ∧
      t.grid.generation = s.grid.genMark + 1 ∧ t.session.publishSeen = true) ∧
  (∀ (s : State) (i : Bool), s.engine.state = .computing → s.frameIn .solving = some i →
    ((s.frame i).discard = true ∨ 4294967295 ≤ s.grid.genMark) →
    let u := { s.setFrame i Frame.empty with
      engine := { state := .idle, results := [], largest := 0 }
      intake := { s.intake with outcomes := modifyAt s.intake.outcomes 8 (fun e =>
        { tag := (s.frame i).tag, outcome := .discarded, count := (e.count + 1) % 256, ringGen := 0 }) } }
    (s.frameIn .queued = none → exec .computingEnd s = .next u.settle) ∧
    (∀ j, s.frameIn .queued = some j → exec .computingEnd s =
      .next (State.settle { u.setFrame j { s.frame j with state := .solving } with
        engine := { state := .computing, results := [], largest := 0 } }))) ∧
  (∀ (f : Frame) (n : Snapshot), f.snapshot = some n →
    (solveFrame f).1 = f.slots.map (fun v => (solveZone n v).1) ∧
    (∀ v ∈ f.slots, (solveZone n v).2 ≤ (solveFrame f).2) ∧ (f.slots = [] → (solveFrame f).2 = 0) ∧
    (f.slots ≠ [] → ∃ v ∈ f.slots, (solveFrame f).2 = (solveZone n v).2))

/-- Every zone's result is the one R71 to R76 give: UNMEASURED, IN_BAND, or the adjustment 4D/S rounded to nearest or
toward zero and limited to the step limit (R71, R72, R73, R74, R75, R76). -/
def Obligations.ZonesAreSolvedByTheRules : Prop :=
  ∀ (n : Snapshot) (m : Option Nat), 1 ≤ n.slope → n.tEff ≤ 65534 →
    (m = none ∨ m = some 0 ∨ m = some 65535 → solveZone n m = ({ cls := .unmeasured, adjust := 0 }, 0)) ∧
    (∀ v, m = some v → 1 ≤ v → v ≤ 65534 →
      ((n.tEff - n.tolLo ≤ v ∧ v ≤ n.tEff + n.tolHi) → solveZone n m = ({ cls := .inBand, adjust := 0 }, 0)) ∧
      (¬(n.tEff - n.tolLo ≤ v ∧ v ≤ n.tEff + n.tolHi) →
        ∃ a : Int,
          (n.rounding = .nearest → 2 * (4 * ((n.tEff : Int) - v)) - n.slope ≤ 2 * (n.slope * a) ∧
            2 * (n.slope * a) ≤ 2 * (4 * ((n.tEff : Int) - v)) + n.slope ∧
            (2 * |4 * ((n.tEff : Int) - v) - n.slope * a| = n.slope → |4 * ((n.tEff : Int) - v)| < n.slope * |a|)) ∧
          (n.rounding = .towardZero → |n.slope * a| ≤ |4 * ((n.tEff : Int) - v)| ∧
            |4 * ((n.tEff : Int) - v)| < |n.slope * a| + n.slope ∧ 0 ≤ a * ((n.tEff : Int) - v)) ∧
          solveZone n m =
            (if |a| ≤ n.limit then ({ cls := .adjusted, adjust := a }, a.natAbs)
              else ({ cls := .partialMove, adjust := a.sign * n.limit }, a.natAbs))))

/-- PUBLISH of a waiting frame on a free grid: a history entry with the old codes and marks is pushed, older entries giving
way at the bottom (R79, R82, R89, R90, R91); a zone measured outside the band takes its clamped sum, SATURATED where clamped,
and each measured zone's mark clears (R80, R81); the class map shows the rectangle's classes and 15 elsewhere, the report
counts them and gives the least and greatest new code (R38, R83); a new generation is taken, publish-seen is set, the SOLVE
entry reads DONE, the buffer is FREE, a QUEUED frame in the other is taken, and nothing else changes (R43, R68, R79). With no
generation left the frame is discarded (R86); no waiting frame, or a grid not free, publishes nothing (R78, log 2). The
events that free the grid publish so within their own steps, so the row itself acts only where no run leads (log 13); an
emptied buffer's content is the model's (log 26). -/
def Obligations.PublishWritesTheFrame : Prop :=
  let taken := fun (s t : State) (i : Bool) =>
    t.frame i = Frame.empty ∧
    (s.frameIn .queued = none → t.frame (!i) = s.frame (!i) ∧ t.engine = { state := .idle, results := [], largest := 0 }) ∧
    (s.frameIn .queued = some (!i) → t.frame (!i) = { s.frame (!i) with state := .solving } ∧
      t.engine = { state := .computing, results := [], largest := 0 })
  (∀ (s : State) (i : Bool), s.gridSound → s.engine.state = .publishWait → s.frameIn .solving = some i →
    s.gridFree = true → s.grid.genMark < 4294967295 →
    s.engine.results.length = (s.frame i).rect.w * (s.frame i).rect.h →
    let f := s.frame i
    let n := f.rect.w * f.rect.h
    let place := fun j => (f.rect.y0 + j / f.rect.w) * s.grid.cols + (f.rect.x0 + j % f.rect.w)
    let index := fun j => f.plane.index * s.grid.zones + place j
    let result := fun j => s.engine.results.getD j { cls := .unmeasured, adjust := 0 }
    let moves := fun j => (result j).cls ≠ .unmeasured ∧ (result j).cls ≠ .inBand
    let sum := fun j => s.grid.codes.getD (index j) 0 + (result j).adjust
    let code := fun j => if moves j then max (-128) (min 127 (sum j)) else s.grid.codes.getD (index j) 0
    let cls := fun j => if moves j ∧ (sum j < -128 ∨ 127 < sum j) then .saturated else (result j).cls
    let count := fun (c : ZoneClass) => ((List.range n).filter (fun j => decide (cls j = c))).length
    ∃ t r e rest, exec .publish s = .next t ∧ taken s t i ∧
      t = State.settle { s with
        grid := { s.grid with
          codes := t.grid.codes, marks := t.grid.marks, generation := s.grid.genMark + 1, genMark := s.grid.genMark + 1 }
        frame0 := t.frame0, frame1 := t.frame1, engine := t.engine, report := some r, classMap := t.classMap
        history := { stack := e :: rest,
                     truncated := min 65535 (s.history.truncated + (s.history.stack.length - rest.length)) }
        intake := { s.intake with outcomes := modifyAt s.intake.outcomes 8 (fun x =>
          { tag := f.tag, outcome := .done, count := (x.count + 1) % 256, ringGen := 0 }) }
        session := { s.session with publishSeen := true } } ∧
      e = { plane := f.plane, rect := f.rect, tag := f.tag,
            codes := (List.range n).map (fun j => s.grid.codes.getD (index j) 0)
            marks := (List.range n).map (fun j => s.grid.marks.getD (index j) false) } ∧
      (∃ gone, s.history.stack = rest ++ gone ∧ rest.length + 1 ≤ 8 ∧ payloadTotal rest + e.payload ≤ 18432 ∧
        ∀ x more, gone = x :: more → rest.length + 2 > 8 ∨ payloadTotal (rest ++ [x]) + e.payload > 18432) ∧
      (∀ j, j < n → t.grid.codes[index j]? = some (code j) ∧
        t.grid.marks[index j]? = some (decide ((result j).cls = .unmeasured) && s.grid.marks.getD (index j) false) ∧
        t.classMap[place j]? = some (some (cls j))) ∧
      (∀ k, (∀ j, j < n → k ≠ index j) → t.grid.codes[k]? = s.grid.codes[k]? ∧ t.grid.marks[k]? = s.grid.marks[k]?) ∧
      (∀ k, k < s.grid.zones → (∀ j, j < n → k ≠ place j) → t.classMap[k]? = some none) ∧
      t.classMap.length = s.grid.zones ∧
      r = { tag := f.tag, plane := f.plane, rect := f.rect, unmeasured := count .unmeasured, inBand := count .inBand,
            adjusted := count .adjusted, partialMoves := count .partialMove, saturated := count .saturated,
            largest := s.engine.largest, minCode := r.minCode, maxCode := r.maxCode, generation := s.grid.genMark + 1 } ∧
      (1 ≤ n → (∀ j, j < n → r.minCode ≤ code j ∧ code j ≤ r.maxCode) ∧ (∃ j, j < n ∧ code j = r.minCode) ∧
        ∃ j, j < n ∧ code j = r.maxCode)) ∧
  (∀ (s : State) (i : Bool), s.engine.state = .publishWait → s.frameIn .solving = some i → s.gridFree = true →
    4294967295 ≤ s.grid.genMark →
    ∃ t, exec .publish s = .next t ∧ taken s t i ∧
      t = State.settle { s with
        frame0 := t.frame0, frame1 := t.frame1, engine := t.engine
        intake := { s.intake with outcomes := modifyAt s.intake.outcomes 8 (fun x =>
          { tag := (s.frame i).tag, outcome := .discarded, count := (x.count + 1) % 256, ringGen := 0 }) } }) ∧
  (∀ s : State, s.engine.state ≠ .publishWait ∨ s.gridFree = false ∨ s.frameIn .solving = none →
    exec .publish s = .next s.settle)

/-! ## The Flash Sequencer -/

/-- JOB_START takes the head waiting job when none is in progress, as the steps that queue or end a job do of themselves
(R122), so the row itself acts only where no run leads (log 13), and one not due changes nothing (log 2). COMMIT_GRID and
PARK take the grid lock and the grid at that moment; no other kind takes the lock (R46, R122). COMMIT_GRID erases the first
PANEL sector, then writes and verifies the check table, then each PANEL sector: the overlay's bytes, filled with 0xFF to the
last block, with a poisoned check where a byte carries a bit of a marked zone-plane (R140, R141); that the bytes programmed
alone, and of a PANEL sector without a block none, are read back is the model's choice (log 50, 52). PARK erases, programs up
to the image's end and verifies each sector of its image (R144, R145), whose header names the planned image generation; that
it is written modulo 2^32 where the ring generation is at its end is the model's choice (log 54). KEY_STORE builds its slot's
entry of the staged class and length, the station and the line time, 0 while not valid (R153, R162). SCAN reads the 16 key
slots, the two ring sectors, and, of a uniformity record that passes R150's first test, its check entries aside and its PANEL
blocks (R130). A rewrite reads its sector's 16 pages into the buffer, which begins empty, and keeps aside the whole check
table for a PANEL sector, or for PANEL_CHECK the PANEL sectors within the latest uniformity record's length (R129).
KEY_ERASE, SCRUB and a KEY_STORE whose slot was not EMPTY begin with one (R132, R162, R165). REGION_SELECT reads its header
(R172). All in the model's read steps (log 18); that a job other than a rewrite finds the buffer as it was left is the
model's choice (log 43). CLOSE_OUT goes to its append at once, which fails where no ring generation is left, and the next
waiting job then starts (R138, R176). -/
def Obligations.JobsStartOneAtATime : Prop :=
  (∀ s : State, exec .jobStart s = .next s.startDue.settle) ∧
  (∀ (s : State) (l : Layout) (j : Job) (rest : List Job), s.layout = some l → s.seq.active = none →
    s.seq.waiting = j :: rest →
    let gen := match s.latest with | some x => x.record.ringGen + 1 | none => 1
    let next := match s.latest with | some x => (x.slot + 1) % 128 | none => 0
    let keyAddr := l.keys + 512 * j.slot
    let rewrite := fun (a : Active) (b : List Byte) (rw : Rewrite) =>
      a.todo = rewriteReads l s.uniformityBlocks rw ∧ b = [] ∧ rw.second = false
    (j.kind ≠ .closeOut →
      ∃ t a, exec .jobStart s = .next (State.settle t) ∧
        t = { s with
          seq := { s.seq with active := some a, waiting := rest, buffer := t.seq.buffer }
          grid := { s.grid with lock := if j.kind = .commitGrid ∨ j.kind = .park then some j.kind else s.grid.lock } } ∧
        a = { job := j, stage := .work, todo := a.todo, phase := .waiting, data := a.data } ∧
        (j.kind ≠ .commitGrid → j.kind ≠ .park → j.kind ≠ .keyStore → a.data = JobData.empty) ∧
        (j.kind = .commitGrid → t.seq.buffer = s.seq.buffer ∧ a.data = { JobData.empty with
            grid := some s.grid, poisoned := s.grid.poisonedCount } ∧ a.todo = s.grid.commitSteps l ∧ a.todo.head? = some (.erase l.panel)) ∧
        (j.kind = .park → t.seq.buffer = s.seq.buffer ∧ a.data = { JobData.empty with
            grid := some s.grid, imageGen := gen } ∧ a.todo = parkSteps l (s.grid.parkImage gen s.scale)) ∧
        (j.kind = .keyStore →
          let content := keySlotBytes (keySlotData j.slot s.builtKey s.staging.payload)
          a.data = { JobData.empty with key := some (s.builtKey, content) } ∧
          ((s.keyEntry j.slot).prior = .empty → t.seq.buffer = s.seq.buffer ∧ a.todo = [.read keyAddr 512 .probeSlot]) ∧
          ((s.keyEntry j.slot).prior ≠ .empty → rewrite a t.seq.buffer
            { sector := keyAddr / 4096 * 4096, splice := some (keyAddr, content), scrub := false, second := false })) ∧
        (j.kind = .keyErase → rewrite a t.seq.buffer
          { sector := keyAddr / 4096 * 4096, splice := some (keyAddr, List.replicate 512 0xFF), scrub := false,
            second := false }) ∧
        (j.kind = .regionSelect → t.seq.buffer = s.seq.buffer ∧
          a.todo = [.read (l.profiles + 65536 * j.slot) 64 .header]) ∧
        (j.kind = .scan → t.seq.buffer = s.seq.buffer ∧ a.todo = s.scanSteps l) ∧
        (j.kind = .scrub → rewrite a t.seq.buffer
          { sector := j.sector, splice := none, scrub := true, second := false })) ∧
    (j.kind = .closeOut → (∀ x, s.latest = some x → x.record.ringGen < 4294967295) →
      ∃ a, exec .jobStart s =
          .next (State.settle { s with seq := { s.seq with active := some a, waiting := rest } }) ∧
        a = { job := j, stage := .append, phase := .waiting
              data := { JobData.empty with target := next, ringErased := decide (next % 64 = 0) }
              todo := (if next % 64 = 0 then [.erase (l.ring + 4096 * (next / 64))] else [])
                ++ [.read (l.ring + 64 * next) 64 .probeTarget] }) ∧
    (j.kind = .closeOut → (∃ x, s.latest = some x ∧ 4294967295 ≤ x.record.ringGen) →
      exec .jobStart s = exec .jobStart { s.raise { cls := .jobFailed, address := some l.ring } with
        seq := { s.seq with waiting := rest }
        intake := { s.intake with outcomes := modifyAt s.intake.outcomes 5 (fun e =>
          { tag := j.tag, outcome := .verifyFailed, count := (e.count + 1) % 256, ringGen := 0 }) } })) ∧
  (∀ s : State, s.seq.active ≠ none ∨ s.seq.waiting = [] → exec .jobStart s = .next s.settle) ∧
  (∀ (s : State) (l : Layout),
    let sound := fun r : CommitRecord => r.uniformityValid = true ∧ 1 ≤ r.cols ∧ r.cols ≤ 128 ∧ 1 ≤ r.rows ∧ r.rows ≤ 72 ∧
      (r.width = 8 ∨ r.width = 6) ∧ r.shift ≤ 3 ∧
      r.uniLength = (if r.width = 6 then 32 + 3 * ((3 * (r.cols * r.rows) + 3) / 4) else 32 + 3 * (r.cols * r.rows))
    let areas := (List.range 16).map (fun k => Step.read (l.keys + 512 * k) 512 (.scanSlot k)) ++
      [.read l.ring 4096 (.scanRing 0), .read (l.ring + 4096) 4096 (.scanRing 1)]
    let panel := fun (blocks : Nat) => Step.read l.panelCheck (4 * blocks) (.aside false) ::
      (List.range ((64 * blocks + 4095) / 4096)).map (fun i =>
        .read (l.panel + 4096 * i) (min 4096 (64 * blocks - 4096 * i)) (.scanPanel i))
    s.builtKey = { state := .present, cls := s.staging.cls, length := s.staging.total, station := s.session.station
                   day := if s.session.timeValid = true then s.session.day else 0
                   seconds := if s.session.timeValid = true then s.session.seconds else 0
                   prior := .empty, erasing := false } ∧
    s.uniformityBlocks = (match s.latest with
      | some x => if x.record.uniformityValid = true then min 448 ((x.record.uniLength + 63) / 64) else 0
      | none => 0) ∧
    ((∀ x, s.latest = some x → ¬sound x.record) → s.scanSteps l = areas) ∧
    (∀ x, s.latest = some x → sound x.record → s.scanSteps l = areas ++ panel ((x.record.uniLength + 63) / 64))) ∧
  (∀ (l : Layout) (blocks : Nat) (rw : Rewrite),
    let n := (64 * blocks + 4095) / 4096
    let pages := fun (last : Use) => (List.range 16).map (fun i =>
      Step.read (rw.sector + 256 * i) 256 (if i = 15 then last else .loadPage))
    rewriteReads l blocks rw =
      if l.panel ≤ rw.sector ∧ rw.sector < l.panel + 28672 then
        pages .loadPage ++ [.read l.panelCheck 1792 (.plan false rw)]
      else if rw.sector = l.panelCheck ∧ 1 ≤ n then
        pages .loadPage ++ (List.range n).map (fun i =>
          .read (l.panel + 4096 * i) 4096 (if i + 1 = n then .plan false rw else .aside (decide (i ≠ 0))))
      else pages (.plan true rw)) ∧
  (
    let pages := fun (addr : Nat) (bytes : List Byte) => (List.range ((bytes.length + 255) / 256)).map (fun p =>
      Step.program (addr + 256 * p) ((bytes.drop (256 * p)).take 256))
    (∀ (g : Grid) (l : Layout),
      let len := if g.width = 6 then 32 + 3 * ((3 * g.zones + 3) / 4) else 32 + 3 * g.zones
      let blocks := (len + 63) / 64
      let block := fun i => (List.range 64).map (fun o =>
        if 64 * i + o < len then g.overlayByte (64 * i + o) else 0xFF)
      let first := fun k => if g.width = 6 then 32 + 6 * k / 8 else 32 + k
      let last := fun k => if g.width = 6 then 32 + (6 * k + 5) / 8 else 32 + k
      let poisoned := fun i => (List.range (3 * g.zones)).any (fun k =>
        g.marks.getD k false && decide (first k / 64 = i ∨ last k / 64 = i))
      let table := (List.range blocks).flatMap (fun i =>
        if poisoned i = true then poisonedCheckOf (block i) else checkOf (block i))
      let write := fun i =>
        let mine := (List.range blocks).filter (fun k => decide (k / 64 = i))
        let bytes := mine.flatMap block
        pages (l.panel + 4096 * i) bytes ++ (if bytes = [] then [] else
          [.read l.panelCheck 1792 (.aside false), .read (l.panel + 4096 * i) bytes.length (.verify
            { sector := l.panel + 4096 * i, erased := true, addr := l.panel + 4096 * i, bytes := bytes, form := .panel,
              expects := mine.map (fun k => if poisoned k = true then .poisoned else .good), second := false })])
      g.poisonedCount = ((List.range blocks).filter poisoned).length ∧
      g.commitSteps l = [.erase l.panel, .erase l.panelCheck] ++ pages l.panelCheck table
        ++ [.read l.panelCheck (4 * blocks) (.verify
          { sector := l.panelCheck, erased := true, addr := l.panelCheck, bytes := table, form := .checkTable, expects := [],
            second := false })]
        ++ write 0 ++ (List.range 6).flatMap (fun i => .erase (l.panel + 4096 * (i + 1)) :: write (i + 1))) ∧
    (∀ (g : Grid) (gen scale : Nat), g.sound → (g.parkImage gen scale).length =
      64 * (2 + (3 * g.zones + 59) / 60 + (3 * g.zones + 479) / 480) ∧
      let h := g.parkImage gen scale
      fieldAt h 0 4 = gen % 4294967296 ∧ fieldAt h 4 4 = g.generation ∧ byteAt h 8 = g.cols ∧ byteAt h 9 = g.rows ∧
      byteAt h 10 = g.width ∧ byteAt h 11 = g.shift ∧ fieldAt h 12 2 = scale % 65536) ∧
    ∀ (l : Layout) (image : List Byte), parkSteps l image = (List.range ((image.length + 4095) / 4096)).flatMap (fun i =>
      let bytes := (image.drop (4096 * i)).take 4096
      [.erase (l.park + 4096 * i)] ++ pages (l.park + 4096 * i) bytes ++ [.read (l.park + 4096 * i) bytes.length (.verify
        { sector := l.park + 4096 * i, erased := true, addr := l.park + 4096 * i, bytes := bytes, form := .embedded,
          expects := List.replicate (bytes.length / 64) .good, second := false })]))

/-- SEQUENCER_STEP_BEGIN begins nothing inside an upstream transaction; else it begins the status read before a step, and a
step whose status read is done: a read, or, unless PFW holds it, an erase or program, which begins an occupied period and
reaches the flash (R3, R10, R124, R128); that its bytes stand in the flash as it begins is the model's choice (log 5), and so
is that a new operation replaces one the flash may be at (log 38). The first step of an append to begin (log 20) builds its
commit record: every field of the latest record, or of R136's base, with the kind, the next ring generation, the station and
the line time, 0 while not valid (R24, R136, R138), and the fields of its kind: those of the grid a COMMIT_GRID or PARK took
(R143, R146), the key class set (R163), the region (R172), the closed flag (R176). OCCUPIED_PERIOD_END brings the flash's
latch to the shadow and completes the step (R10); at the last step of a job's work the append begins with its target's read,
behind an erase where the target is its sector's first slot, and with all else that the job gathered (R137, R138), or, with
no ring generation left, the job ends VERIFY_FAILED with JOB_FAILED for the RING base and its end actions (R127, R138; log
27, 29, 43). An OCCUPIED_PERIOD_END outside an occupied period changes nothing, which is the model's choice (log 2). -/
def Obligations.StepsBeginWhileTheLaneIsFree : Prop :=
  (∀ s : State, s.laneBusy = true → exec .sequencerStepBegin s = .next s.settle) ∧
  (∀ (s : State) (a : Active), s.laneBusy = false → s.seq.active = some a → a.phase = .waiting →
    exec .sequencerStepBegin s = .next (State.settle (s.withActive { a with phase := .polling }))) ∧
  (∀ (s : State) (a : Active) (st : Step) (rest : List Step), s.laneBusy = false → s.seq.active = some a →
    a.phase = .ready → a.todo = st :: rest →
    let copied : CommitRecord := match s.latest with
      | some x => x.record
      | none =>
        { kind := 0, closed := false, regionValid := false, timeValid := false, uniformityValid := false, parkValid := false,
          station := 0, ringGen := 0, uniGen := 0, uniLength := 0, width := 0, shift := 0, cols := 0, rows := 0, poisoned := 0,
          parkGen := 0, parkImage := 0, regionSlot := 0xFF, profileId := 0, regionScale := 256, keySet := 0, day := 0,
          seconds := 0, unknown := 0 }
    let common := fun (kind : Nat) => { copied with
      kind := kind, station := s.session.station
      ringGen := (match s.latest with | some x => x.record.ringGen + 1 | none => 1)
      timeValid := s.session.timeValid
      day := if s.session.timeValid = true then s.session.day else 0
      seconds := if s.session.timeValid = true then s.session.seconds else 0 }
    let held := fun (c : Nat) => ∃ k < s.keys.length, k ≠ a.job.slot ∧ (s.keyEntry k).cls = c ∧
      ((s.keyEntry k).state = .present ∨
        ((s.keyEntry k).state = .pending ∧ (s.keyEntry k).erasing = true ∧ (s.keyEntry k).prior = .present))
    let appends := fun (r : CommitRecord) =>
      (∀ g, a.job.kind = .commitGrid → a.data.grid = some g → r = { common 1 with
        uniformityValid := true, uniGen := g.generation
        uniLength := if g.width = 6 then 32 + 3 * ((3 * g.zones + 3) / 4) else 32 + 3 * g.zones
        width := g.width, shift := g.shift, cols := g.cols, rows := g.rows, poisoned := a.data.poisoned
        unknown := g.marks.count true }) ∧
      (∀ g, a.job.kind = .park → a.data.grid = some g →
        r = { common 2 with parkValid := true, parkGen := g.generation, parkImage := a.data.imageGen }) ∧
      (∀ e content, a.job.kind = .keyStore → a.data.key = some (e, content) → r = { common 3 with keySet := r.keySet } ∧
        ∀ c, r.keySet.testBit c = true ↔ 1 ≤ c ∧ c ≤ 15 ∧ (c = e.cls ∨ held c)) ∧
      (a.job.kind = .keyErase → r = { common 3 with keySet := r.keySet } ∧
        ∀ c, r.keySet.testBit c = true ↔ 1 ≤ c ∧ c ≤ 15 ∧ held c) ∧
      (∀ h, a.job.kind = .regionSelect → a.data.header = some h → r = { common 4 with
        regionValid := true, regionSlot := a.job.slot, profileId := h.id, regionScale := h.scale }) ∧
      (a.job.kind = .closeOut → r = { common 5 with closed := true })
    let begun := fun (b : Active) (ph : Phase) =>
      b = { a with phase := ph, data := { a.data with record := b.data.record } } ∧
      (a.stage = .work → b.data.record = a.data.record) ∧
      (a.stage = .append → (∀ r, a.data.record = some r → b.data.record = some r) ∧
        (a.data.record = none → ∃ r, b.data.record = some r ∧ appends r))
    (s.pfw = true → st.writes = true → exec .sequencerStepBegin s = .next s.settle) ∧
    (∀ x, s.pfw = false → st = .erase x → ∃ b, begun b .occupied ∧
      exec .sequencerStepBegin s = .next (State.settle (State.withActive { s with
        flash := { cells := Memory.erase s.flash.cells x 4096, latch := false,
                   op := some { base := x, len := 4096, before := Memory.range s.flash.cells x 4096 } } } b))) ∧
    (∀ x bytes, s.pfw = false → st = .program x bytes → ∃ b, begun b .occupied ∧
      exec .sequencerStepBegin s = .next (State.settle (State.withActive { s with
        flash := { cells := Memory.program s.flash.cells x bytes, latch := false,
                   op := some { base := x / 256 * 256, len := 256,
                                before := Memory.range s.flash.cells (x / 256 * 256) 256 } } } b))) ∧
    (∀ x n u, st = .read x n u → ∃ b, begun b .reading ∧
      exec .sequencerStepBegin s = .next (State.settle (s.withActive b)))) ∧
  (∀ (s : State) (l : Layout) (a : Active) (st : Step) (rest : List Step), s.layout = some l →
    s.seq.active = some a → a.phase = .occupied → a.todo = st :: rest →
    let u := { s with flash := { s.flash with op := none, latch := s.shadow } }
    let next := match s.latest with | some x => (x.slot + 1) % 128 | none => 0
    (rest ≠ [] → exec .occupiedPeriodEnd s =
      .next (State.settle (u.withActive { a with todo := rest, phase := .waiting }))) ∧
    (rest = [] → a.stage = .work → a.job.kind ≠ .scan → a.job.kind ≠ .scrub →
      (∀ x, s.latest = some x → x.record.ringGen < 4294967295) →
      exec .occupiedPeriodEnd s = .next (State.settle (u.withActive { a with
        stage := .append, phase := .waiting
        data := { a.data with target := next, ringErased := a.data.ringErased || decide (next % 64 = 0) }
        todo := (if next % 64 = 0 then [.erase (l.ring + 4096 * (next / 64))] else [])
          ++ [.read (l.ring + 64 * next) 64 .probeTarget] }))) ∧
    (rest = [] → a.stage = .work → ∀ y, s.latest = some y → 4294967295 ≤ y.record.ringGen →
      let v := u.raise { cls := .jobFailed, address := some l.ring }
      let e := { v with
        seq := { v.seq with active := none }
        intake := { v.intake with outcomes := modifyAt v.intake.outcomes (a.job.kind.code - 1) (fun e =>
          { tag := a.job.tag, outcome := .verifyFailed, count := (e.count + 1) % 256, ringGen := 0 }) } }
      let does := fun t : State => exec .occupiedPeriodEnd s = .next (State.settle t)
      let damaged := State.raise { e with
        keys := e.keys.set a.job.slot { KeyEntry.empty with state := .damaged } } { cls := .keyDamage, slot := some a.job.slot }
      (a.job.kind = .commitGrid ∨ a.job.kind = .park →
        does (State.startDue (State.publishWaiting { e with grid := { e.grid with lock := none } }))) ∧
      (a.job.kind = .keyStore → does (State.startDue { damaged with staging := Staging.idle })) ∧
      (a.job.kind = .keyErase → does damaged.startDue) ∧
      (a.job.kind = .regionSelect ∨ a.job.kind = .closeOut → does e.startDue))) ∧
  (∀ (s : State), (∀ a, s.seq.active = some a → a.phase ≠ .occupied) → exec .occupiedPeriodEnd s = .next s.settle)

/-- READ_STEP_COMPLETE: a status read that finds the flash busy is repeated, and else the step is ready (R124). A verify, of
every byte read (log 47) and every block's decode, the bytes programmed alone being read also after a repeat (log 52),
decoded as its form says, embedded or PANEL against its table entries or the reverse, that passes leads to the next step, or
at the last one to the append (R137, R138). One that fails is repeated once: with the sector's erase, page programs and
verify where the job erased it, else as a rewrite of the sector through the buffer (R126), but for a key programmed without
an erase under the closed flag (R166); a second failure ends the job VERIFY_FAILED with JOB_FAILED for the sector, and a key
job's slot DAMAGED with KEY_DAMAGE (R127, R154), its other fields 0, behind JOB_FAILED (log 27, 29). So ends, with JOB_FAILED
for the RING base, a job whose work is done with no ring generation left (R138). KEY_STORE's read of a slot thought EMPTY:
where it is blank its two pages are programmed and verified; else its sector is rewritten, or under the closed flag the job
fails so (R162, R166). A blank target slot is written with the record, any other passed over; the verified record becomes the
latest and the job ends with its ring generation (R138): COMMIT_GRID and PARK release the grid lock, at which a waiting frame
publishes, and PARK clears the history's stack (R46, R78, R97, R143, R146); KEY_STORE sets its slot's entry and frees the
staging buffer (R163); KEY_ERASE makes its slot EMPTY (R165); REGION_SELECT selects its region (R172); CLOSE_OUT closes the
session (R176; log 41 where it is not OPEN). A profile header that is not valid, or of another scale after a publish, ends
REGION_SELECT PROFILE_INVALID with its reason (R172). The next waiting job then starts (R122). That the sector buffer keeps
its bytes when a job ends is the model's choice (log 43). -/
def Obligations.ReadStepsJudgeWhatTheyRead : Prop :=
  (∀ (s : State) (l : Layout) (a : Active) (busy : Bool) (mis : List Host.Cell), s.layout = some l →
    s.seq.active = some a → a.phase = .polling →
    exec (.readStepComplete busy mis) s = .next (State.settle
      (if busy = true ∧ s.flash.op ≠ none then s.withActive { a with phase := .waiting }
        else State.withActive { s with flash := { s.flash with op := none } } { a with phase := .ready }))) ∧
  (∀ (s : State) (l : Layout) (a : Active) (x n : Nat) (use : Use) (rest : List Step) (busy : Bool)
    (mis : List Host.Cell), s.layout = some l → s.seq.active = some a → a.phase = .reading →
    a.todo = .read x n use :: rest →
    let bytes := Memory.read (Memory.setAll s.flash.cells mis) x n
    let does := fun t : State => exec (.readStepComplete busy mis) s = .next (State.settle t)
    let goesOn := fun (u : State) (b : Active) (todo : List Step) => does (u.withActive { b with todo := todo, phase := .waiting })
    let ended := fun (u : State) (o : JobOutcome) (g : Nat) => { u with
      seq := { u.seq with active := none }
      intake := { u.intake with outcomes := modifyAt u.intake.outcomes (a.job.kind.code - 1) (fun e =>
        { tag := a.job.tag, outcome := o, count := (e.count + 1) % 256, ringGen := g }) } }
    let unlocked := fun u : State => State.publishWaiting { u with grid := { u.grid with lock := none } }
    let damaged := fun u : State => State.raise { u with
      keys := u.keys.set a.job.slot { KeyEntry.empty with state := .damaged } } { cls := .keyDamage, slot := some a.job.slot }
    let next := match s.latest with | some y => (y.slot + 1) % 128 | none => 0
    let probes := fun (t : Nat) => (if t % 64 = 0 then [Step.erase (l.ring + 4096 * (t / 64))] else [])
      ++ [.read (l.ring + 64 * t) 64 .probeTarget]
    let aimed := fun (b : Active) (t : Nat) => { b with
      stage := .append, data := { b.data with target := t, ringErased := b.data.ringErased || decide (t % 64 = 0) } }
    let fails := fun (u : State) (sector : Nat) =>
      let e := ended (u.raise { cls := .jobFailed, address := some sector }) .verifyFailed 0
      (a.job.kind = .commitGrid ∨ a.job.kind = .park → does (unlocked e).startDue) ∧
      (a.job.kind = .keyStore → does (State.startDue { damaged e with staging := Staging.idle })) ∧
      (a.job.kind = .keyErase → does (damaged e).startDue) ∧
      (a.job.kind = .regionSelect ∨ a.job.kind = .closeOut ∨ a.job.kind = .scrub → does e.startDue)
    (use = .loadPage → rest ≠ [] → goesOn { s with seq := { s.seq with buffer := s.seq.buffer ++ bytes } } a rest) ∧
    (∀ more, use = .aside more → rest ≠ [] →
      goesOn s { a with data := { a.data with aside := if more = true then a.data.aside ++ bytes else bytes } } rest) ∧
    (∀ w, use = .verify w →
      let passes := bytes = w.bytes ∧ w.decodes l bytes a.data.aside = w.expects
      let once := w.second = true ∨ (a.job.kind = .keyStore ∧ a.stage = .work ∧ w.erased = false ∧ s.closedFlag = true)
      (passes → rest ≠ [] → goesOn s a rest) ∧
      (passes → rest = [] → a.stage = .work → a.job.kind ≠ .scan → a.job.kind ≠ .scrub →
        (∀ y, s.latest = some y → y.record.ringGen < 4294967295) → goesOn s (aimed a next) (probes next)) ∧
      (passes → rest = [] → a.stage = .work → a.job.kind ≠ .scan → a.job.kind ≠ .scrub →
        ∀ y, s.latest = some y → 4294967295 ≤ y.record.ringGen → fails s l.ring) ∧
      (passes → rest = [] → a.stage = .work → a.job.kind = .scrub → does (ended s .done 0).startDue) ∧
      (passes → rest = [] → a.stage = .append → ∀ r, a.data.record = some r →
        let e := ended { s with latest := some { slot := a.data.target, record := r } }
          (if a.job.kind = .commitGrid ∧ 0 < a.data.poisoned then .donePoisoned else .done) r.ringGen
        (a.job.kind = .commitGrid → does (unlocked e).startDue) ∧
        (a.job.kind = .park → does (unlocked { e with history := { s.history with stack := [] } }).startDue) ∧
        (∀ k content, a.job.kind = .keyStore → a.data.key = some (k, content) →
          does (State.startDue { e with keys := s.keys.set a.job.slot k, staging := Staging.idle })) ∧
        (a.job.kind = .keyErase → does (State.startDue { e with keys := s.keys.set a.job.slot KeyEntry.empty })) ∧
        (∀ h, a.job.kind = .regionSelect → a.data.header = some h →
          does (State.startDue { e with region := { s.region with
            selected := some { slot := a.job.slot, id := h.id, scale := h.scale }, classes := some h.classes } })) ∧
        (a.job.kind = .closeOut → does (State.startDue { e with session := { s.session with
          state := if s.session.state = .opened then .closed else s.session.state } }))) ∧
      (¬passes → once → fails s w.sector) ∧
      (¬passes → ¬once → w.erased = true → goesOn s a (({ w with second := true }).steps l ++ rest)) ∧
      (¬passes → ¬once → w.erased = false →
        goesOn { s with seq := { s.seq with buffer := [] } } { a with data := { a.data with aside := [] } }
          (rewriteReads l s.uniformityBlocks
            { sector := w.sector, splice := some (w.addr, w.bytes), scrub := false, second := true } ++ rest))) ∧
    (use = .probeTarget → ∀ r, a.data.record = some r →
      let at' := l.ring + 64 * a.data.target
      let past := (a.data.target + 1) % 128
      ((∀ b ∈ bytes, b = 0xFF) → goesOn s a [.program at' (embedBlock r.data), .read at' 64 (.verify
        { sector := l.ring + 4096 * (a.data.target / 64), erased := a.data.ringErased, addr := at',
          bytes := embedBlock r.data, form := .embedded, expects := [.good], second := false })]) ∧
      (¬(∀ b ∈ bytes, b = 0xFF) → goesOn s (aimed a past) (probes past))) ∧
    (use = .probeSlot → a.job.kind = .keyStore → ∀ k content, a.data.key = some (k, content) → content.length = 512 →
      let at' := l.keys + 512 * a.job.slot
      let sector := at' / 4096 * 4096
      ((∀ b ∈ bytes, b = 0xFF) → goesOn s a [.program at' (content.take 256), .program (at' + 256) (content.drop 256),
        .read at' 512 (.verify { sector := sector, erased := false, addr := at', bytes := content, form := .embedded,
                                 expects := List.replicate 8 .good, second := false })]) ∧
      (¬(∀ b ∈ bytes, b = 0xFF) → s.closedFlag = false →
        goesOn { s with seq := { s.seq with buffer := [] } } { a with data := { a.data with aside := [] } }
          (rewriteReads l s.uniformityBlocks
            { sector := sector, splice := some (at', content), scrub := false, second := false })) ∧
      (¬(∀ b ∈ bytes, b = 0xFF) → s.closedFlag = true → fails s sector)) ∧
    (use = .header → a.job.kind = .regionSelect →
      let known := fun (h : Option ProfileHeader) => { s with
        region := { s.region with directory := s.region.directory.set a.job.slot h } }
      let invalid := fun (u : State) (n : Nat) =>
        does (State.startDue (ended { u with region := { u.region with reason := n } } .profileInvalid 0))
      (profileHeader bytes = none → invalid (known none) 1) ∧
      (∀ h, profileHeader bytes = some h → s.session.publishSeen = true → h.scale ≠ s.scale → invalid (known (some h)) 2) ∧
      (∀ h, profileHeader bytes = some h → s.session.publishSeen = false ∨ h.scale = s.scale →
        (∀ y, s.latest = some y → y.record.ringGen < 4294967295) →
        goesOn (known (some h)) (aimed { a with data := { a.data with header := some h } } next) (probes next)) ∧
      (∀ h, profileHeader bytes = some h → s.session.publishSeen = false ∨ h.scale = s.scale →
        ∀ y, s.latest = some y → 4294967295 ≤ y.record.ringGen → fails (known (some h)) l.ring))) ∧
  (∀ (l : Layout) (w : SectorWrite) (bytes aside : List Byte),
    let pages := (List.range ((w.bytes.length + 255) / 256)).map (fun p =>
      Step.program (w.addr + 256 * p) ((w.bytes.drop (256 * p)).take 256))
    let reads : List Step := match w.form with
      | .embedded => []
      | .panel => [.read l.panelCheck 1792 (.aside false)]
      | .checkTable => (List.range ((64 * w.expects.length + 4095) / 4096)).map (fun i =>
        .read (l.panel + 4096 * i) 4096 (.aside (decide (i ≠ 0))))
    w.steps l = (if w.erased = true then [.erase w.sector] else []) ++ pages ++
      (if w.bytes = [] then [] else reads ++ [.read w.addr w.bytes.length (.verify w)]) ∧
    w.decodes l bytes aside = (match w.form with
      | .embedded => (List.range (bytes.length / 64)).map (fun i =>
        decodeBlock ((bytes.drop (64 * i)).take 60) ((bytes.drop (64 * i + 60)).take 4))
      | .panel => (List.range (bytes.length / 64)).map (fun i =>
        decodeBlock ((bytes.drop (64 * i)).take 64) ((aside.drop (4 * ((w.addr - l.panel) / 64 + i))).take 4))
      | .checkTable => (List.range w.expects.length).map (fun i =>
        decodeBlock ((aside.drop (64 * i)).take 64) ((bytes.drop (4 * i)).take 4))))

/-- A correction adds one to its sector's tally, up to 255, and is reported DEGRADED once, at the third; a sector not listed
takes a place, of a full tally that of the lowest count, the oldest among equals (R121). SCAN's read of a sector tallies each
CORRECTED block, a PANEL block's in PANEL_CHECK where its table entry alone was wrong (R120), and reports at its last block
STORE_CORRECTED, STORE_UNCORRECTED, the same with INDIRECT for POISONED, and STORE_UNCORRECTED for a BLANK block in PANEL or
amid a written key slot, once each (R131), in the model's order, DEGRADED and KEY_DAMAGE first (log 29), and a PANEL sector's
SCRUB before PANEL_CHECK's (log 51); a corrected sector of KEYS without the closed flag, of PANEL or PANEL_CHECK has a SCRUB
queued in COMMISSIONING mode where none for it waits and fewer than four jobs do, and of the ring none (R131, R166). A key
slot's entry is set from its blocks, but while PENDING (R156). SCRUB ends DONE with nothing written where no block is
CORRECTED (R132); else, as in every rewrite, the repairs and the owner's content stand in the sector buffer and the sector is
erased, programmed from it page by page and verified by its blocks' decodes (R126, R129). A block carried is expected as it
was found, BLANK, POISONED or UNCORRECTABLE, else GOOD, also where the damage was charged to the other area (R126, log 21),
and a spliced one BLANK where it is all 0xFF, else GOOD (R126, R165). SCAN's last step ends it DONE and the next waiting job
starts (R122). That the sector buffer keeps its bytes when a job ends is the model's choice (log 43). -/
def Obligations.ScansReportWhatTheyFind : Prop :=
  (∀ (s : State) (x : Nat) (more : List Nat), s.tallyAll [] = s ∧
    ∃ e due, s.tallyAll (x :: more) = State.tallyAll
        (if due = true then State.raise { s with seq := { s.seq with tally := e } } { cls := .degraded, address := some x }
          else { s with seq := { s.seq with tally := e } }) more ∧
      (∀ pre y post, s.seq.tally = pre ++ y :: post → y.sector = x → (∀ z ∈ pre, z.sector ≠ x) →
        let n := if y.count < 255 then y.count + 1 else y.count
        due = (decide (3 ≤ n) && !y.reported) ∧
          e = pre ++ { sector := x, count := n, reported := y.reported || decide (3 ≤ n) } :: post) ∧
      ((∀ z ∈ s.seq.tally, z.sector ≠ x) → due = false ∧
        (s.seq.tally.length < 16 → e = s.seq.tally ++ [{ sector := x, count := 1, reported := false }]) ∧
        (∀ pre y post, s.seq.tally = pre ++ y :: post → 16 ≤ s.seq.tally.length → (∀ z ∈ pre, y.count < z.count) →
          (∀ z ∈ post, y.count ≤ z.count) → e = pre ++ post ++ [{ sector := x, count := 1, reported := false }]))) ∧
  (∀ (s : State) (l : Layout) (a : Active) (x n : Nat) (use : Use) (rest : List Step) (busy : Bool)
    (mis : List Host.Cell), s.layout = some l → s.seq.active = some a → a.phase = .reading →
    a.todo = .read x n use :: rest →
    let bytes := Memory.read (Memory.setAll s.flash.cells mis) x n
    let blocks := blocksOf bytes
    let ended := fun (u : State) => State.startDue { u with
      seq := { u.seq with active := none }
      intake := { u.intake with outcomes := modifyAt u.intake.outcomes (a.job.kind.code - 1) (fun e =>
        { tag := a.job.tag, outcome := .done, count := (e.count + 1) % 256, ringGen := 0 }) } }
    let goesOn := fun (u : State) (found : Findings) (check : Bool) =>
      exec (.readStepComplete busy mis) s = .next (State.settle (if rest = [] then ended u else u.withActive { a with
        todo := rest, phase := .waiting, data := { a.data with found := found, checkFound := check } }))
    let reports := fun (f : Findings) (sector : Nat) =>
      (if f.corrected = true then [({ cls := .storeCorrected, address := some sector } : Report)] else [])
        ++ (if f.uncorrectable = true then [{ cls := .storeUncorrected, address := some sector }] else [])
        ++ (if f.poisoned = true then [{ cls := .storeUncorrected, address := some sector, indirect := true }] else [])
        ++ (if f.blank = true then [{ cls := .storeUncorrected, address := some sector }] else [])
    let scrubbed := fun (u : State) (sector : Nat) =>
      if u.mode = .commissioning ∧ (∀ j ∈ u.seq.waiting, ¬(j.kind = .scrub ∧ j.sector = sector)) ∧ u.seq.waiting.length < 4
      then { u with seq := { u.seq with waiting := u.seq.waiting ++ [{ kind := .scrub, tag := 0, slot := 0, sector := sector }] } }
      else u
    (∀ i, use = .scanRing i → a.job.kind = .scan → a.stage = .work →
      let ds := blocks.map decodeEmbedded
      let sector := l.ring + 4096 * i
      let f : Findings := { corrected := ds.any Decode.corrected, uncorrectable := decide (.uncorrectable ∈ ds),
                            poisoned := decide (.poisoned ∈ ds), blank := false }
      goesOn ((s.tallyAll ((ds.filter Decode.corrected).map (fun _ => sector))).raiseAll (reports f sector))
        a.data.found a.data.checkFound) ∧
    (∀ i, use = .scanPanel i → a.job.kind = .scan → a.stage = .work →
      let ds := blocks.zipIdx.map (fun p => decodeBlock p.1 (slice a.data.aside (4 * (64 * i + p.2)) 4))
      let sector := l.panel + 4096 * i
      let own := ds.filter (fun d => decide (d ≠ .checkOnly))
      let f : Findings := { corrected := own.any Decode.corrected, uncorrectable := decide (.uncorrectable ∈ ds),
                            poisoned := decide (.poisoned ∈ ds), blank := decide (.blank ∈ ds) }
      let check := a.data.checkFound || decide (.checkOnly ∈ ds)
      let u := (s.tallyAll ((ds.filter Decode.corrected).map (fun d => if d = .checkOnly then l.panelCheck else sector)
        )).raiseAll (reports f sector)
      let v := if f.corrected = true then scrubbed u sector else u
      goesOn (if rest = [] ∧ check = true then
          scrubbed (v.raise { cls := .storeCorrected, address := some l.panelCheck }) l.panelCheck else v)
        Findings.none check) ∧
    (∀ k, use = .scanSlot k → a.job.kind = .scan → a.stage = .work →
      let ds := blocks.map decodeEmbedded
      let sector := (l.keys + 512 * k) / 4096 * 4096
      let f : Findings :=
        { corrected := a.data.found.corrected || ds.any Decode.corrected
          uncorrectable := a.data.found.uncorrectable || decide (.uncorrectable ∈ ds)
          poisoned := a.data.found.poisoned || decide (.poisoned ∈ ds)
          blank := a.data.found.blank || (decide (.blank ∈ ds) && decide (∃ d ∈ ds, d ≠ .blank)) }
      let u := s.tallyAll ((ds.filter Decode.corrected).map (fun _ => sector))
      let set := fun (e : KeyEntry) => { u with keys := s.keys.set k e }
      let damaged := fun (e : KeyEntry) =>
        (set { e with state := .damaged }).raise { cls := .keyDamage, slot := some k }
      ∃ v : State,
        ((s.keyEntry k).state = .pending → v = u) ∧
        ((s.keyEntry k).state ≠ .pending →
          ((∀ d ∈ ds, d = .blank) → v = set KeyEntry.empty) ∧
          (¬(∀ d ∈ ds, d = .blank) →
            let header := keyHeader k (decodeEmbedded (blocks.getD 0 [])) (embeddedData (blocks.getD 0 []))
            (¬(∀ d ∈ ds, d.trusted = true) ∨ header = none → v = damaged KeyEntry.empty) ∧
            ∀ e, (∀ d ∈ ds, d.trusted = true) → header = some e →
              v = (if ∃ j < s.keys.length, j ≠ k ∧ (s.keyEntry j).holds e.cls = true then damaged e else set e))) ∧
        (k % 8 ≠ 7 → goesOn v f a.data.checkFound) ∧
        (k % 8 = 7 →
          let w := v.raiseAll (reports f sector)
          goesOn (if f.corrected = true ∧ s.closedFlag = false then scrubbed w sector else w)
            Findings.none a.data.checkFound)) ∧
    (∀ toBuffer rw, use = .plan toBuffer rw →
      let buffer := if toBuffer = true then s.seq.buffer ++ bytes else s.seq.buffer
      let aside := if toBuffer = true then a.data.aside else a.data.aside ++ bytes
      let form : BlockForm := if l.panel ≤ rw.sector ∧ rw.sector < l.panel + 28672 then .panel
        else if rw.sector = l.panelCheck then .checkTable else .embedded
      let found : List Found := match form with
        | .embedded => (blocksOf buffer).map (fun b =>
          let d := decodeEmbedded b
          { bytes := repairData (b.take 60) d ++ (if d = .checkOnly then checkOf (b.take 60) else b.drop 60), decode := d })
        | .panel => (blocksOf buffer).zipIdx.map (fun p =>
          let d := decodeBlock p.1 (slice aside (4 * ((rw.sector - l.panel) / 64 + p.2)) 4)
          { bytes := repairData p.1 d, decode := d })
        | .checkTable => (List.range s.uniformityBlocks).map (fun i =>
          let d := decodeBlock (slice aside (64 * i) 64) (slice buffer (4 * i) 4)
          { bytes := if d = .checkOnly then checkOf (slice aside (64 * i) 64) else slice buffer (4 * i) 4, decode := d })
      let repaired := overwrite buffer 0 (found.map (fun f => f.bytes)).flatten
      let carried := found.map (fun f => match f.decode with
        | .blank => Decode.blank
        | .poisoned => .poisoned
        | .uncorrectable => .uncorrectable
        | _ => .good)
      let whole := match rw.splice with
        | some p => overwrite repaired (p.1 - rw.sector) p.2
        | none => repaired
      let expects := match rw.splice with
        | some p => overwrite carried ((p.1 - rw.sector) / 64)
          ((blocksOf p.2).map (fun b => if ∀ x ∈ b, x = 0xFF then .blank else .good))
        | none => carried
      let w : SectorWrite := { sector := rw.sector, erased := true, addr := rw.sector, bytes := whole, form := form,
                               expects := expects, second := rw.second }
      (rw.scrub = true → a.job.kind = .scrub → (∀ f ∈ found, f.decode.corrected = false) →
        exec (.readStepComplete busy mis) s = .next (State.settle (ended { s with seq := { s.seq with buffer := buffer } }))) ∧
      (rw.scrub = false ∨ (∃ f ∈ found, f.decode.corrected = true) →
        exec (.readStepComplete busy mis) s = .next (State.settle (State.withActive
          { s with seq := { s.seq with buffer := whole } }
          { a with todo := w.steps l ++ rest, phase := .waiting, data := { a.data with aside := aside } }))))) ∧
  (∀ (l : Layout) (w : SectorWrite) (bytes aside : List Byte),
    let pages := (List.range ((w.bytes.length + 255) / 256)).map (fun p =>
      Step.program (w.addr + 256 * p) ((w.bytes.drop (256 * p)).take 256))
    let reads : List Step := match w.form with
      | .embedded => []
      | .panel => [.read l.panelCheck 1792 (.aside false)]
      | .checkTable => (List.range ((64 * w.expects.length + 4095) / 4096)).map (fun i =>
        .read (l.panel + 4096 * i) 4096 (.aside (decide (i ≠ 0))))
    w.steps l = (if w.erased = true then [.erase w.sector] else []) ++ pages ++
      (if w.bytes = [] then [] else reads ++ [.read w.addr w.bytes.length (.verify w)]) ∧
    w.decodes l bytes aside = (match w.form with
      | .embedded => (List.range (bytes.length / 64)).map (fun i =>
        decodeBlock ((bytes.drop (64 * i)).take 60) ((bytes.drop (64 * i + 60)).take 4))
      | .panel => (List.range (bytes.length / 64)).map (fun i =>
        decodeBlock ((bytes.drop (64 * i)).take 64) ((aside.drop (4 * ((w.addr - l.panel) / 64 + i))).take 4))
      | .checkTable => (List.range w.expects.length).map (fun i =>
        decodeBlock ((aside.drop (64 * i)).take 64) ((bytes.drop (4 * i)).take 4))))
end

