-- ==== Sys2Proof/Laws/Memory.lean ====
section
/-! SUPPORT. The flash's memory: every operation keeps the canonical form, a read after a write gives the byte written,
and an operation leaves every byte it does not reach. -/

namespace Sys2Proof.Machine

/-! ## The canonical form -/

theorem Memory.wfFrom_cons (lo a : Nat) (v : Byte) (t : Memory) :
    Memory.wfFrom lo ((a, v) :: t) = true ↔ lo ≤ a ∧ a < flashSize ∧ v ≠ erasedByte ∧ Memory.wfFrom (a + 1) t = true := by
  simp [Memory.wfFrom, Bool.and_eq_true, and_assoc]

theorem Memory.wfFrom_mono {lo lo' : Nat} (h : lo' ≤ lo) : ∀ {m : Memory}, Memory.wfFrom lo m = true → Memory.wfFrom lo' m = true
  | [], _ => rfl
  | (a, v) :: t, hm => by
    rw [Memory.wfFrom_cons] at hm ⊢
    exact ⟨le_trans h hm.1, hm.2⟩

theorem Memory.wfFrom_filter (p : Host.Cell → Bool) :
    ∀ {lo : Nat} {m : Memory}, Memory.wfFrom lo m = true → Memory.wfFrom lo (m.filter p) = true
  | _, [], _ => rfl
  | lo, (a, v) :: t, hm => by
    rw [Memory.wfFrom_cons] at hm
    have ht := Memory.wfFrom_filter p hm.2.2.2
    by_cases hp : p (a, v) = true
    · rw [List.filter_cons_of_pos hp, Memory.wfFrom_cons]
      exact ⟨hm.1, hm.2.1, hm.2.2.1, ht⟩
    · rw [List.filter_cons_of_neg hp]
      exact Memory.wfFrom_mono (by omega) ht

theorem Memory.wfFrom_set {x : Nat} {v : Byte} (hx : x < flashSize) :
    ∀ {lo : Nat} {m : Memory}, lo ≤ x → Memory.wfFrom lo m = true → Memory.wfFrom lo (Memory.set m x v) = true
  | lo, [], hlo, _ => by
    by_cases hv : v = erasedByte
    · simp [Memory.set, hv, Memory.wfFrom]
    · simp only [Memory.set, if_neg hv, Memory.wfFrom_cons]
      exact ⟨hlo, hx, hv, rfl⟩
  | lo, (a, w) :: t, hlo, hm => by
    rw [Memory.wfFrom_cons] at hm
    obtain ⟨h1, h2, h3, h4⟩ := hm
    simp only [Memory.set]
    by_cases hxa : x < a
    · rw [if_pos hxa]
      by_cases hv : v = erasedByte
      · rw [if_pos hv, Memory.wfFrom_cons]; exact ⟨h1, h2, h3, h4⟩
      · rw [if_neg hv, Memory.wfFrom_cons]
        refine ⟨hlo, hx, hv, ?_⟩
        rw [Memory.wfFrom_cons]; exact ⟨hxa, h2, h3, h4⟩
    · rw [if_neg hxa]
      by_cases he : x = a
      · rw [if_pos he]
        by_cases hv : v = erasedByte
        · rw [if_pos hv]; exact Memory.wfFrom_mono (by omega) h4
        · rw [if_neg hv, Memory.wfFrom_cons]; exact ⟨hlo, hx, hv, he ▸ h4⟩
      · rw [if_neg he, Memory.wfFrom_cons]
        exact ⟨h1, h2, h3, Memory.wfFrom_set hx (by omega) h4⟩

theorem Memory.wf_set {m : Memory} {x : Nat} {v : Byte} (hx : x < flashSize) (hm : m.wf = true) :
    (Memory.set m x v).wf = true := Memory.wfFrom_set hx (Nat.zero_le _) hm

theorem Memory.wf_erase {m : Memory} (base len : Nat) (hm : m.wf = true) : (Memory.erase m base len).wf = true :=
  Memory.wfFrom_filter _ hm

theorem Memory.wf_range {m : Memory} (base len : Nat) (hm : m.wf = true) : (Memory.range m base len).wf = true :=
  Memory.wfFrom_filter _ hm

theorem Memory.mod_flashSize_lt (a : Nat) : a % flashSize < flashSize := Nat.mod_lt _ (by norm_num [flashSize])

theorem Memory.wf_setAll : ∀ (cs : List Host.Cell) {m : Memory}, m.wf = true → (Memory.setAll m cs).wf = true
  | [], _, hm => hm
  | _ :: t, _, hm => Memory.wf_setAll t (Memory.wf_set (Memory.mod_flashSize_lt _) hm)

theorem Memory.wf_programFrom (page : Nat) :
    ∀ (data : List Byte) (off : Nat) {m : Memory}, m.wf = true → (Memory.programFrom m page off data).wf = true
  | [], _, _, hm => hm
  | _ :: t, off, _, hm =>
    Memory.wf_programFrom page t ((off + 1) % 256) (Memory.wf_set (Memory.mod_flashSize_lt _) hm)

theorem Memory.wf_program {m : Memory} (addr : Nat) (data : List Byte) (hm : m.wf = true) :
    (Memory.program m addr data).wf = true := Memory.wf_programFrom _ _ _ hm

theorem Flash.wf_erase {f : Flash} (base len : Nat) (h : Memory.wf f.cells = true) :
    Memory.wf (f.erase base len).cells = true := by
  unfold Flash.erase
  split
  · exact Memory.wf_erase base len h
  · exact h

theorem Flash.wf_program {f : Flash} (addr : Nat) (data : List Byte) (h : Memory.wf f.cells = true) :
    Memory.wf (f.program addr data).cells = true := by
  unfold Flash.program
  split
  · simp only
    exact Memory.wf_program addr data h
  · exact h

@[simp] theorem Flash.setLatch_cells (f : Flash) (on : Bool) : (f.setLatch on).cells = f.cells := rfl
@[simp] theorem Flash.setLatch_op (f : Flash) (on : Bool) : (f.setLatch on).op = f.op := rfl
@[simp] theorem Flash.setLatch_latch (f : Flash) (on : Bool) : (f.setLatch on).latch = on := rfl

theorem Flash.wf_cut {f : Flash} (reached : List Host.Cell) (h : Memory.wf f.cells = true) :
    Memory.wf (f.cut reached) = true := by
  unfold Flash.cut
  split
  · exact h
  · exact Memory.wf_setAll _ (Memory.wf_setAll _ (Memory.wf_erase _ _ h))

theorem Memory.wf_reset : Memory.wf State.reset.flash.cells = true := rfl

/-! ## Reading after writing -/

theorem Memory.get_set_same (x : Nat) (v : Byte) : ∀ {lo : Nat} {m : Memory}, Memory.wfFrom lo m = true →
    Memory.get (Memory.set m x v) x = v
  | _, [], _ => by
    by_cases hv : v = erasedByte <;> simp [Memory.set, Memory.get, hv]
  | lo, (a, w) :: t, hm => by
    rw [Memory.wfFrom_cons] at hm
    have key : ∀ {m : Memory} {lo : Nat}, Memory.wfFrom lo m = true → x < lo → Memory.get m x = erasedByte := by
      intro m lo h hlt
      cases m with
      | nil => rfl
      | cons c t =>
        obtain ⟨b, u⟩ := c
        rw [Memory.wfFrom_cons] at h
        simp [Memory.get, show x < b by omega]
    simp only [Memory.set]
    by_cases hxa : x < a
    · by_cases hv : v = erasedByte <;> simp [hxa, hv, Memory.get]
    · by_cases he : x = a
      · by_cases hv : v = erasedByte
        · simp only [if_neg hxa, if_pos he, if_pos hv]
          rw [key hm.2.2.2 (by omega), hv]
        · simp [he, hv, Memory.get]
      · simp only [if_neg hxa, if_neg he, Memory.get]
        exact Memory.get_set_same x v hm.2.2.2

theorem Memory.get_below {m : Memory} {lo x : Nat} (h : Memory.wfFrom lo m = true) (hlt : x < lo) :
    Memory.get m x = erasedByte := by
  cases m with
  | nil => rfl
  | cons c t =>
    obtain ⟨b, u⟩ := c
    rw [Memory.wfFrom_cons] at h
    simp [Memory.get, show x < b by omega]

theorem Memory.get_set_other {x y : Nat} (v : Byte) (hxy : y ≠ x) : ∀ {lo : Nat} {m : Memory},
    Memory.wfFrom lo m = true → Memory.get (Memory.set m x v) y = Memory.get m y
  | _, [], _ => by
    by_cases hv : v = erasedByte
    · simp [Memory.set, hv]
    · simp only [Memory.set, if_neg hv, Memory.get, if_neg hxy, ite_self]
  | lo, (a, w) :: t, hm => by
    rw [Memory.wfFrom_cons] at hm
    obtain ⟨-, -, -, h4⟩ := hm
    simp only [Memory.set]
    by_cases hxa : x < a
    · by_cases hv : v = erasedByte
      · simp [hxa, hv]
      · simp only [if_pos hxa, if_neg hv, Memory.get, if_neg hxy]
        by_cases hy : y < x
        · simp [hy, show y < a by omega]
        · simp [hy]
    · by_cases he : x = a
      · subst he
        by_cases hv : v = erasedByte
        · simp only [lt_irrefl, if_false, if_true, if_pos hv, Memory.get, if_neg hxy]
          by_cases hy : y < x
          · rw [if_pos hy, Memory.get_below h4 (by omega)]
          · rw [if_neg hy]
        · simp only [lt_irrefl, if_false, if_true, if_neg hv, Memory.get, if_neg hxy]
      · simp only [if_neg hxa, if_neg he, Memory.get]
        by_cases hy : y < a
        · simp [hy]
        · by_cases hya : y = a
          · simp [hya]
          · simp only [if_neg hy, if_neg hya]
            exact Memory.get_set_other v hxy h4

theorem Memory.get_filter {p : Host.Cell → Bool} {x : Nat} (hp : ∀ v, p (x, v) = true) :
    ∀ {lo : Nat} {m : Memory}, Memory.wfFrom lo m = true → Memory.get (m.filter p) x = Memory.get m x
  | _, [], _ => rfl
  | lo, (a, v) :: t, hm => by
    rw [Memory.wfFrom_cons] at hm
    by_cases hpa : p (a, v) = true
    · rw [List.filter_cons_of_pos hpa]
      simp only [Memory.get]
      rw [Memory.get_filter hp hm.2.2.2]
    · rw [List.filter_cons_of_neg hpa]
      have hne : x ≠ a := by
        rintro rfl
        exact hpa (hp v)
      simp only [Memory.get, if_neg hne]
      by_cases hlt : x < a
      · rw [if_pos hlt, Memory.get_below (Memory.wfFrom_filter p hm.2.2.2) (by omega)]
      · rw [if_neg hlt]; exact Memory.get_filter hp hm.2.2.2

theorem Memory.get_filter_out {p : Host.Cell → Bool} {x : Nat} (hp : ∀ v, p (x, v) = false) :
    ∀ {lo : Nat} {m : Memory}, Memory.wfFrom lo m = true → Memory.get (m.filter p) x = erasedByte
  | _, [], _ => rfl
  | lo, (a, v) :: t, hm => by
    rw [Memory.wfFrom_cons] at hm
    by_cases hpa : p (a, v) = true
    · rw [List.filter_cons_of_pos hpa]
      have hne : x ≠ a := by
        rintro rfl
        rw [hp v] at hpa
        exact Bool.noConfusion hpa
      simp only [Memory.get, if_neg hne]
      rw [Memory.get_filter_out hp hm.2.2.2, ite_self]
    · rw [List.filter_cons_of_neg hpa]
      exact Memory.get_filter_out hp hm.2.2.2

/-- An erase sets every byte of its range to 0xFF (R3). -/
theorem Memory.get_erase_inside {m : Memory} {base len x : Nat} (hm : m.wf = true) (h1 : base ≤ x) (h2 : x < base + len) :
    Memory.get (Memory.erase m base len) x = erasedByte :=
  Memory.get_filter_out (by intro v; simp; omega) hm

/-- An erase leaves every byte outside its range. -/
theorem Memory.get_erase_outside {m : Memory} {base len x : Nat} (hm : m.wf = true) (h : x < base ∨ base + len ≤ x) :
    Memory.get (Memory.erase m base len) x = Memory.get m x :=
  Memory.get_filter (by intro v; simp [h]) hm

/-- A program leaves every byte outside its page (R3, R7). -/
theorem Memory.get_programFrom_outside {page x : Nat} (hx : ∀ o, o < 256 → x ≠ (page + o) % flashSize) :
    ∀ (data : List Byte) (off : Nat) {m : Memory}, off < 256 → m.wf = true →
      Memory.get (Memory.programFrom m page off data) x = Memory.get m x
  | [], _, _, _, _ => rfl
  | _ :: t, off, m, ho, hm => by
    simp only [Memory.programFrom]
    rw [Memory.get_programFrom_outside hx t ((off + 1) % 256) (Nat.mod_lt _ (by decide))
      (Memory.wf_set (Memory.mod_flashSize_lt _) hm), Memory.get_set_other _ (hx off ho) hm]

theorem Memory.get_program_outside {m : Memory} {addr x : Nat} (data : List Byte) (hm : m.wf = true)
    (hx : ∀ o, o < 256 → x ≠ (addr / 256 * 256 + o) % flashSize) :
    Memory.get (Memory.program m addr data) x = Memory.get m x :=
  Memory.get_programFrom_outside hx _ _ (Nat.mod_lt _ (by decide)) hm

end Sys2Proof.Machine
end

