-- ==== Sys2Proof/Laws/State.lean ====
section
/-! SUPPORT. One lemma per field per update of State: what each update leaves as it stood, and what it writes. -/

namespace Sys2Proof.Machine

/-! ## settle -/

@[simp] theorem State.settle_sysHold (s : State) : s.settle.sysHold = s.sysHold := rfl
@[simp] theorem State.settle_sysRst (s : State) : s.settle.sysRst = s.sysRst := rfl
@[simp] theorem State.settle_pfw (s : State) : s.settle.pfw = s.pfw := rfl
@[simp] theorem State.settle_lineMode (s : State) : s.settle.lineMode = s.lineMode := rfl
@[simp] theorem State.settle_mode (s : State) : s.settle.mode = s.mode := rfl
@[simp] theorem State.settle_layout (s : State) : s.settle.layout = s.layout := rfl
@[simp] theorem State.settle_upstream (s : State) : s.settle.upstream = s.upstream := rfl
@[simp] theorem State.settle_served (s : State) : s.settle.served = s.served := rfl
@[simp] theorem State.settle_shadow (s : State) : s.settle.shadow = s.shadow := rfl
@[simp] theorem State.settle_counters (s : State) : s.settle.counters = s.counters := rfl
@[simp] theorem State.settle_intake (s : State) : s.settle.intake = s.intake := rfl
@[simp] theorem State.settle_grid (s : State) : s.settle.grid = s.grid := rfl
@[simp] theorem State.settle_frame0 (s : State) : s.settle.frame0 = s.frame0 := rfl
@[simp] theorem State.settle_frame1 (s : State) : s.settle.frame1 = s.frame1 := rfl
@[simp] theorem State.settle_engine (s : State) : s.settle.engine = s.engine := rfl
@[simp] theorem State.settle_report (s : State) : s.settle.report = s.report := rfl
@[simp] theorem State.settle_classMap (s : State) : s.settle.classMap = s.classMap := rfl
@[simp] theorem State.settle_history (s : State) : s.settle.history = s.history := rfl
@[simp] theorem State.settle_watches (s : State) : s.settle.watches = s.watches := rfl
@[simp] theorem State.settle_seq (s : State) : s.settle.seq = s.seq := rfl
@[simp] theorem State.settle_latest (s : State) : s.settle.latest = s.latest := rfl
@[simp] theorem State.settle_keys (s : State) : s.settle.keys = s.keys := rfl
@[simp] theorem State.settle_staging (s : State) : s.settle.staging = s.staging := rfl
@[simp] theorem State.settle_region (s : State) : s.settle.region = s.region := rfl
@[simp] theorem State.settle_conds (s : State) : s.settle.conds = s.conds := rfl
@[simp] theorem State.settle_flash (s : State) : s.settle.flash = s.flash := rfl
@[simp] theorem State.settle_draws (s : State) : s.settle.draws = s.draws := rfl
@[simp] theorem State.settle_pending (s : State) : s.settle.pending = s.pending := rfl

/-! ## cutRead -/

@[simp] theorem State.cutRead_sysHold (s : State) : s.cutRead.sysHold = s.sysHold := rfl
@[simp] theorem State.cutRead_sysRst (s : State) : s.cutRead.sysRst = s.sysRst := rfl
@[simp] theorem State.cutRead_pfw (s : State) : s.cutRead.pfw = s.pfw := rfl
@[simp] theorem State.cutRead_lineMode (s : State) : s.cutRead.lineMode = s.lineMode := rfl
@[simp] theorem State.cutRead_attn (s : State) : s.cutRead.attn = s.attn := rfl
@[simp] theorem State.cutRead_lamp (s : State) : s.cutRead.lamp = s.lamp := rfl
@[simp] theorem State.cutRead_mode (s : State) : s.cutRead.mode = s.mode := rfl
@[simp] theorem State.cutRead_layout (s : State) : s.cutRead.layout = s.layout := rfl
@[simp] theorem State.cutRead_upstream (s : State) : s.cutRead.upstream = s.upstream := rfl
@[simp] theorem State.cutRead_served (s : State) : s.cutRead.served = s.served := rfl
@[simp] theorem State.cutRead_shadow (s : State) : s.cutRead.shadow = s.shadow := rfl
@[simp] theorem State.cutRead_counters (s : State) : s.cutRead.counters = s.counters := rfl
@[simp] theorem State.cutRead_intake (s : State) : s.cutRead.intake = s.intake := rfl
@[simp] theorem State.cutRead_session (s : State) : s.cutRead.session = s.session := rfl
@[simp] theorem State.cutRead_grid (s : State) : s.cutRead.grid = s.grid := rfl
@[simp] theorem State.cutRead_frame0 (s : State) : s.cutRead.frame0 = s.frame0 := rfl
@[simp] theorem State.cutRead_frame1 (s : State) : s.cutRead.frame1 = s.frame1 := rfl
@[simp] theorem State.cutRead_engine (s : State) : s.cutRead.engine = s.engine := rfl
@[simp] theorem State.cutRead_report (s : State) : s.cutRead.report = s.report := rfl
@[simp] theorem State.cutRead_classMap (s : State) : s.cutRead.classMap = s.classMap := rfl
@[simp] theorem State.cutRead_history (s : State) : s.cutRead.history = s.history := rfl
@[simp] theorem State.cutRead_watches (s : State) : s.cutRead.watches = s.watches := rfl
@[simp] theorem State.cutRead_latest (s : State) : s.cutRead.latest = s.latest := rfl
@[simp] theorem State.cutRead_keys (s : State) : s.cutRead.keys = s.keys := rfl
@[simp] theorem State.cutRead_staging (s : State) : s.cutRead.staging = s.staging := rfl
@[simp] theorem State.cutRead_region (s : State) : s.cutRead.region = s.region := rfl
@[simp] theorem State.cutRead_conds (s : State) : s.cutRead.conds = s.conds := rfl
@[simp] theorem State.cutRead_flash (s : State) : s.cutRead.flash = s.flash := rfl
@[simp] theorem State.cutRead_draws (s : State) : s.cutRead.draws = s.draws := rfl
@[simp] theorem State.cutRead_pending (s : State) : s.cutRead.pending = s.pending := rfl

/-! ## withActive -/

@[simp] theorem State.withActive_sysHold (s : State) (a : Active) : (s.withActive a).sysHold = s.sysHold := rfl
@[simp] theorem State.withActive_sysRst (s : State) (a : Active) : (s.withActive a).sysRst = s.sysRst := rfl
@[simp] theorem State.withActive_pfw (s : State) (a : Active) : (s.withActive a).pfw = s.pfw := rfl
@[simp] theorem State.withActive_lineMode (s : State) (a : Active) : (s.withActive a).lineMode = s.lineMode := rfl
@[simp] theorem State.withActive_attn (s : State) (a : Active) : (s.withActive a).attn = s.attn := rfl
@[simp] theorem State.withActive_lamp (s : State) (a : Active) : (s.withActive a).lamp = s.lamp := rfl
@[simp] theorem State.withActive_mode (s : State) (a : Active) : (s.withActive a).mode = s.mode := rfl
@[simp] theorem State.withActive_layout (s : State) (a : Active) : (s.withActive a).layout = s.layout := rfl
@[simp] theorem State.withActive_upstream (s : State) (a : Active) : (s.withActive a).upstream = s.upstream := rfl
@[simp] theorem State.withActive_served (s : State) (a : Active) : (s.withActive a).served = s.served := rfl
@[simp] theorem State.withActive_shadow (s : State) (a : Active) : (s.withActive a).shadow = s.shadow := rfl
@[simp] theorem State.withActive_counters (s : State) (a : Active) : (s.withActive a).counters = s.counters := rfl
@[simp] theorem State.withActive_intake (s : State) (a : Active) : (s.withActive a).intake = s.intake := rfl
@[simp] theorem State.withActive_session (s : State) (a : Active) : (s.withActive a).session = s.session := rfl
@[simp] theorem State.withActive_grid (s : State) (a : Active) : (s.withActive a).grid = s.grid := rfl
@[simp] theorem State.withActive_frame0 (s : State) (a : Active) : (s.withActive a).frame0 = s.frame0 := rfl
@[simp] theorem State.withActive_frame1 (s : State) (a : Active) : (s.withActive a).frame1 = s.frame1 := rfl
@[simp] theorem State.withActive_engine (s : State) (a : Active) : (s.withActive a).engine = s.engine := rfl
@[simp] theorem State.withActive_report (s : State) (a : Active) : (s.withActive a).report = s.report := rfl
@[simp] theorem State.withActive_classMap (s : State) (a : Active) : (s.withActive a).classMap = s.classMap := rfl
@[simp] theorem State.withActive_history (s : State) (a : Active) : (s.withActive a).history = s.history := rfl
@[simp] theorem State.withActive_watches (s : State) (a : Active) : (s.withActive a).watches = s.watches := rfl
@[simp] theorem State.withActive_latest (s : State) (a : Active) : (s.withActive a).latest = s.latest := rfl
@[simp] theorem State.withActive_keys (s : State) (a : Active) : (s.withActive a).keys = s.keys := rfl
@[simp] theorem State.withActive_staging (s : State) (a : Active) : (s.withActive a).staging = s.staging := rfl
@[simp] theorem State.withActive_region (s : State) (a : Active) : (s.withActive a).region = s.region := rfl
@[simp] theorem State.withActive_conds (s : State) (a : Active) : (s.withActive a).conds = s.conds := rfl
@[simp] theorem State.withActive_flash (s : State) (a : Active) : (s.withActive a).flash = s.flash := rfl
@[simp] theorem State.withActive_draws (s : State) (a : Active) : (s.withActive a).draws = s.draws := rfl
@[simp] theorem State.withActive_pending (s : State) (a : Active) : (s.withActive a).pending = s.pending := rfl

/-! ## queueJob -/

@[simp] theorem State.queueJob_sysHold (s : State) (j : Job) : (s.queueJob j).sysHold = s.sysHold := rfl
@[simp] theorem State.queueJob_sysRst (s : State) (j : Job) : (s.queueJob j).sysRst = s.sysRst := rfl
@[simp] theorem State.queueJob_pfw (s : State) (j : Job) : (s.queueJob j).pfw = s.pfw := rfl
@[simp] theorem State.queueJob_lineMode (s : State) (j : Job) : (s.queueJob j).lineMode = s.lineMode := rfl
@[simp] theorem State.queueJob_attn (s : State) (j : Job) : (s.queueJob j).attn = s.attn := rfl
@[simp] theorem State.queueJob_lamp (s : State) (j : Job) : (s.queueJob j).lamp = s.lamp := rfl
@[simp] theorem State.queueJob_mode (s : State) (j : Job) : (s.queueJob j).mode = s.mode := rfl
@[simp] theorem State.queueJob_layout (s : State) (j : Job) : (s.queueJob j).layout = s.layout := rfl
@[simp] theorem State.queueJob_upstream (s : State) (j : Job) : (s.queueJob j).upstream = s.upstream := rfl
@[simp] theorem State.queueJob_served (s : State) (j : Job) : (s.queueJob j).served = s.served := rfl
@[simp] theorem State.queueJob_shadow (s : State) (j : Job) : (s.queueJob j).shadow = s.shadow := rfl
@[simp] theorem State.queueJob_counters (s : State) (j : Job) : (s.queueJob j).counters = s.counters := rfl
@[simp] theorem State.queueJob_intake (s : State) (j : Job) : (s.queueJob j).intake = s.intake := rfl
@[simp] theorem State.queueJob_session (s : State) (j : Job) : (s.queueJob j).session = s.session := rfl
@[simp] theorem State.queueJob_grid (s : State) (j : Job) : (s.queueJob j).grid = s.grid := rfl
@[simp] theorem State.queueJob_frame0 (s : State) (j : Job) : (s.queueJob j).frame0 = s.frame0 := rfl
@[simp] theorem State.queueJob_frame1 (s : State) (j : Job) : (s.queueJob j).frame1 = s.frame1 := rfl
@[simp] theorem State.queueJob_engine (s : State) (j : Job) : (s.queueJob j).engine = s.engine := rfl
@[simp] theorem State.queueJob_report (s : State) (j : Job) : (s.queueJob j).report = s.report := rfl
@[simp] theorem State.queueJob_classMap (s : State) (j : Job) : (s.queueJob j).classMap = s.classMap := rfl
@[simp] theorem State.queueJob_history (s : State) (j : Job) : (s.queueJob j).history = s.history := rfl
@[simp] theorem State.queueJob_watches (s : State) (j : Job) : (s.queueJob j).watches = s.watches := rfl
@[simp] theorem State.queueJob_latest (s : State) (j : Job) : (s.queueJob j).latest = s.latest := rfl
@[simp] theorem State.queueJob_keys (s : State) (j : Job) : (s.queueJob j).keys = s.keys := rfl
@[simp] theorem State.queueJob_staging (s : State) (j : Job) : (s.queueJob j).staging = s.staging := rfl
@[simp] theorem State.queueJob_region (s : State) (j : Job) : (s.queueJob j).region = s.region := rfl
@[simp] theorem State.queueJob_conds (s : State) (j : Job) : (s.queueJob j).conds = s.conds := rfl
@[simp] theorem State.queueJob_flash (s : State) (j : Job) : (s.queueJob j).flash = s.flash := rfl
@[simp] theorem State.queueJob_draws (s : State) (j : Job) : (s.queueJob j).draws = s.draws := rfl
@[simp] theorem State.queueJob_pending (s : State) (j : Job) : (s.queueJob j).pending = s.pending := rfl

/-! ## noteRecord -/

@[simp] theorem State.noteRecord_sysHold (s : State) (tag : Byte) (r : Result) : (s.noteRecord tag r).sysHold = s.sysHold := rfl
@[simp] theorem State.noteRecord_sysRst (s : State) (tag : Byte) (r : Result) : (s.noteRecord tag r).sysRst = s.sysRst := rfl
@[simp] theorem State.noteRecord_pfw (s : State) (tag : Byte) (r : Result) : (s.noteRecord tag r).pfw = s.pfw := rfl
@[simp] theorem State.noteRecord_lineMode (s : State) (tag : Byte) (r : Result) : (s.noteRecord tag r).lineMode = s.lineMode := rfl
@[simp] theorem State.noteRecord_attn (s : State) (tag : Byte) (r : Result) : (s.noteRecord tag r).attn = s.attn := rfl
@[simp] theorem State.noteRecord_lamp (s : State) (tag : Byte) (r : Result) : (s.noteRecord tag r).lamp = s.lamp := rfl
@[simp] theorem State.noteRecord_mode (s : State) (tag : Byte) (r : Result) : (s.noteRecord tag r).mode = s.mode := rfl
@[simp] theorem State.noteRecord_layout (s : State) (tag : Byte) (r : Result) : (s.noteRecord tag r).layout = s.layout := rfl
@[simp] theorem State.noteRecord_upstream (s : State) (tag : Byte) (r : Result) : (s.noteRecord tag r).upstream = s.upstream := rfl
@[simp] theorem State.noteRecord_served (s : State) (tag : Byte) (r : Result) : (s.noteRecord tag r).served = s.served := rfl
@[simp] theorem State.noteRecord_shadow (s : State) (tag : Byte) (r : Result) : (s.noteRecord tag r).shadow = s.shadow := rfl
@[simp] theorem State.noteRecord_counters (s : State) (tag : Byte) (r : Result) : (s.noteRecord tag r).counters = s.counters := rfl
@[simp] theorem State.noteRecord_session (s : State) (tag : Byte) (r : Result) : (s.noteRecord tag r).session = s.session := rfl
@[simp] theorem State.noteRecord_grid (s : State) (tag : Byte) (r : Result) : (s.noteRecord tag r).grid = s.grid := rfl
@[simp] theorem State.noteRecord_frame0 (s : State) (tag : Byte) (r : Result) : (s.noteRecord tag r).frame0 = s.frame0 := rfl
@[simp] theorem State.noteRecord_frame1 (s : State) (tag : Byte) (r : Result) : (s.noteRecord tag r).frame1 = s.frame1 := rfl
@[simp] theorem State.noteRecord_engine (s : State) (tag : Byte) (r : Result) : (s.noteRecord tag r).engine = s.engine := rfl
@[simp] theorem State.noteRecord_report (s : State) (tag : Byte) (r : Result) : (s.noteRecord tag r).report = s.report := rfl
@[simp] theorem State.noteRecord_classMap (s : State) (tag : Byte) (r : Result) : (s.noteRecord tag r).classMap = s.classMap := rfl
@[simp] theorem State.noteRecord_history (s : State) (tag : Byte) (r : Result) : (s.noteRecord tag r).history = s.history := rfl
@[simp] theorem State.noteRecord_watches (s : State) (tag : Byte) (r : Result) : (s.noteRecord tag r).watches = s.watches := rfl
@[simp] theorem State.noteRecord_seq (s : State) (tag : Byte) (r : Result) : (s.noteRecord tag r).seq = s.seq := rfl
@[simp] theorem State.noteRecord_latest (s : State) (tag : Byte) (r : Result) : (s.noteRecord tag r).latest = s.latest := rfl
@[simp] theorem State.noteRecord_keys (s : State) (tag : Byte) (r : Result) : (s.noteRecord tag r).keys = s.keys := rfl
@[simp] theorem State.noteRecord_staging (s : State) (tag : Byte) (r : Result) : (s.noteRecord tag r).staging = s.staging := rfl
@[simp] theorem State.noteRecord_region (s : State) (tag : Byte) (r : Result) : (s.noteRecord tag r).region = s.region := rfl
@[simp] theorem State.noteRecord_conds (s : State) (tag : Byte) (r : Result) : (s.noteRecord tag r).conds = s.conds := rfl
@[simp] theorem State.noteRecord_flash (s : State) (tag : Byte) (r : Result) : (s.noteRecord tag r).flash = s.flash := rfl
@[simp] theorem State.noteRecord_draws (s : State) (tag : Byte) (r : Result) : (s.noteRecord tag r).draws = s.draws := rfl
@[simp] theorem State.noteRecord_pending (s : State) (tag : Byte) (r : Result) : (s.noteRecord tag r).pending = s.pending := rfl

/-! ## setKey -/

@[simp] theorem State.setKey_sysHold (s : State) (k : Nat) (e : KeyEntry) : (s.setKey k e).sysHold = s.sysHold := rfl
@[simp] theorem State.setKey_sysRst (s : State) (k : Nat) (e : KeyEntry) : (s.setKey k e).sysRst = s.sysRst := rfl
@[simp] theorem State.setKey_pfw (s : State) (k : Nat) (e : KeyEntry) : (s.setKey k e).pfw = s.pfw := rfl
@[simp] theorem State.setKey_lineMode (s : State) (k : Nat) (e : KeyEntry) : (s.setKey k e).lineMode = s.lineMode := rfl
@[simp] theorem State.setKey_attn (s : State) (k : Nat) (e : KeyEntry) : (s.setKey k e).attn = s.attn := rfl
@[simp] theorem State.setKey_lamp (s : State) (k : Nat) (e : KeyEntry) : (s.setKey k e).lamp = s.lamp := rfl
@[simp] theorem State.setKey_mode (s : State) (k : Nat) (e : KeyEntry) : (s.setKey k e).mode = s.mode := rfl
@[simp] theorem State.setKey_layout (s : State) (k : Nat) (e : KeyEntry) : (s.setKey k e).layout = s.layout := rfl
@[simp] theorem State.setKey_upstream (s : State) (k : Nat) (e : KeyEntry) : (s.setKey k e).upstream = s.upstream := rfl
@[simp] theorem State.setKey_served (s : State) (k : Nat) (e : KeyEntry) : (s.setKey k e).served = s.served := rfl
@[simp] theorem State.setKey_shadow (s : State) (k : Nat) (e : KeyEntry) : (s.setKey k e).shadow = s.shadow := rfl
@[simp] theorem State.setKey_counters (s : State) (k : Nat) (e : KeyEntry) : (s.setKey k e).counters = s.counters := rfl
@[simp] theorem State.setKey_intake (s : State) (k : Nat) (e : KeyEntry) : (s.setKey k e).intake = s.intake := rfl
@[simp] theorem State.setKey_session (s : State) (k : Nat) (e : KeyEntry) : (s.setKey k e).session = s.session := rfl
@[simp] theorem State.setKey_grid (s : State) (k : Nat) (e : KeyEntry) : (s.setKey k e).grid = s.grid := rfl
@[simp] theorem State.setKey_frame0 (s : State) (k : Nat) (e : KeyEntry) : (s.setKey k e).frame0 = s.frame0 := rfl
@[simp] theorem State.setKey_frame1 (s : State) (k : Nat) (e : KeyEntry) : (s.setKey k e).frame1 = s.frame1 := rfl
@[simp] theorem State.setKey_engine (s : State) (k : Nat) (e : KeyEntry) : (s.setKey k e).engine = s.engine := rfl
@[simp] theorem State.setKey_report (s : State) (k : Nat) (e : KeyEntry) : (s.setKey k e).report = s.report := rfl
@[simp] theorem State.setKey_classMap (s : State) (k : Nat) (e : KeyEntry) : (s.setKey k e).classMap = s.classMap := rfl
@[simp] theorem State.setKey_history (s : State) (k : Nat) (e : KeyEntry) : (s.setKey k e).history = s.history := rfl
@[simp] theorem State.setKey_watches (s : State) (k : Nat) (e : KeyEntry) : (s.setKey k e).watches = s.watches := rfl
@[simp] theorem State.setKey_seq (s : State) (k : Nat) (e : KeyEntry) : (s.setKey k e).seq = s.seq := rfl
@[simp] theorem State.setKey_latest (s : State) (k : Nat) (e : KeyEntry) : (s.setKey k e).latest = s.latest := rfl
@[simp] theorem State.setKey_staging (s : State) (k : Nat) (e : KeyEntry) : (s.setKey k e).staging = s.staging := rfl
@[simp] theorem State.setKey_region (s : State) (k : Nat) (e : KeyEntry) : (s.setKey k e).region = s.region := rfl
@[simp] theorem State.setKey_conds (s : State) (k : Nat) (e : KeyEntry) : (s.setKey k e).conds = s.conds := rfl
@[simp] theorem State.setKey_flash (s : State) (k : Nat) (e : KeyEntry) : (s.setKey k e).flash = s.flash := rfl
@[simp] theorem State.setKey_draws (s : State) (k : Nat) (e : KeyEntry) : (s.setKey k e).draws = s.draws := rfl
@[simp] theorem State.setKey_pending (s : State) (k : Nat) (e : KeyEntry) : (s.setKey k e).pending = s.pending := rfl

/-! ## The publish, and the releases that let it take place -/

/-- The engine taking a frame changes the frame and the engine alone. -/
theorem State.takeFrame_eq (s : State) : s.takeFrame = { s with
    frame0 := s.takeFrame.frame0, frame1 := s.takeFrame.frame1, engine := s.takeFrame.engine } := by
  unfold State.takeFrame
  split
  · split
    · cases ‹Bool› <;> rfl
    · rfl
  · rfl

/-- A discard changes the frame, the engine and the outcome table alone. -/
theorem State.discardFrame_eq (s : State) (i : Bool) : (s.discardFrame i) = { s with
    frame0 := (s.discardFrame i).frame0, frame1 := (s.discardFrame i).frame1, engine := (s.discardFrame i).engine, intake := (s.discardFrame i).intake } := by
  cases i <;> rfl

/-- A publish changes the grid, the frame, the engine, the history, the reports, the outcome table and publish-seen alone. -/
theorem State.publishFrame_eq (s : State) (i : Bool) : (s.publishFrame i) = { s with
    intake := (s.publishFrame i).intake, session := (s.publishFrame i).session, grid := (s.publishFrame i).grid, frame0 := (s.publishFrame i).frame0, frame1 := (s.publishFrame i).frame1, engine := (s.publishFrame i).engine, report := (s.publishFrame i).report, classMap := (s.publishFrame i).classMap, history := (s.publishFrame i).history } := by
  cases i <;> rfl

@[simp] theorem State.takeFrame_sysHold (s : State) : s.takeFrame.sysHold = s.sysHold := by
  rw [State.takeFrame_eq]
@[simp] theorem State.takeFrame_sysRst (s : State) : s.takeFrame.sysRst = s.sysRst := by
  rw [State.takeFrame_eq]
@[simp] theorem State.takeFrame_pfw (s : State) : s.takeFrame.pfw = s.pfw := by
  rw [State.takeFrame_eq]
@[simp] theorem State.takeFrame_lineMode (s : State) : s.takeFrame.lineMode = s.lineMode := by
  rw [State.takeFrame_eq]
@[simp] theorem State.takeFrame_attn (s : State) : s.takeFrame.attn = s.attn := by
  rw [State.takeFrame_eq]
@[simp] theorem State.takeFrame_lamp (s : State) : s.takeFrame.lamp = s.lamp := by
  rw [State.takeFrame_eq]
@[simp] theorem State.takeFrame_mode (s : State) : s.takeFrame.mode = s.mode := by
  rw [State.takeFrame_eq]
@[simp] theorem State.takeFrame_layout (s : State) : s.takeFrame.layout = s.layout := by
  rw [State.takeFrame_eq]
@[simp] theorem State.takeFrame_upstream (s : State) : s.takeFrame.upstream = s.upstream := by
  rw [State.takeFrame_eq]
@[simp] theorem State.takeFrame_served (s : State) : s.takeFrame.served = s.served := by
  rw [State.takeFrame_eq]
@[simp] theorem State.takeFrame_shadow (s : State) : s.takeFrame.shadow = s.shadow := by
  rw [State.takeFrame_eq]
@[simp] theorem State.takeFrame_counters (s : State) : s.takeFrame.counters = s.counters := by
  rw [State.takeFrame_eq]
@[simp] theorem State.takeFrame_intake (s : State) : s.takeFrame.intake = s.intake := by
  rw [State.takeFrame_eq]
@[simp] theorem State.takeFrame_session (s : State) : s.takeFrame.session = s.session := by
  rw [State.takeFrame_eq]
@[simp] theorem State.takeFrame_grid (s : State) : s.takeFrame.grid = s.grid := by
  rw [State.takeFrame_eq]
@[simp] theorem State.takeFrame_report (s : State) : s.takeFrame.report = s.report := by
  rw [State.takeFrame_eq]
@[simp] theorem State.takeFrame_classMap (s : State) : s.takeFrame.classMap = s.classMap := by
  rw [State.takeFrame_eq]
@[simp] theorem State.takeFrame_history (s : State) : s.takeFrame.history = s.history := by
  rw [State.takeFrame_eq]
@[simp] theorem State.takeFrame_watches (s : State) : s.takeFrame.watches = s.watches := by
  rw [State.takeFrame_eq]
@[simp] theorem State.takeFrame_seq (s : State) : s.takeFrame.seq = s.seq := by
  rw [State.takeFrame_eq]
@[simp] theorem State.takeFrame_latest (s : State) : s.takeFrame.latest = s.latest := by
  rw [State.takeFrame_eq]
@[simp] theorem State.takeFrame_keys (s : State) : s.takeFrame.keys = s.keys := by
  rw [State.takeFrame_eq]
@[simp] theorem State.takeFrame_staging (s : State) : s.takeFrame.staging = s.staging := by
  rw [State.takeFrame_eq]
@[simp] theorem State.takeFrame_region (s : State) : s.takeFrame.region = s.region := by
  rw [State.takeFrame_eq]
@[simp] theorem State.takeFrame_conds (s : State) : s.takeFrame.conds = s.conds := by
  rw [State.takeFrame_eq]
@[simp] theorem State.takeFrame_flash (s : State) : s.takeFrame.flash = s.flash := by
  rw [State.takeFrame_eq]
@[simp] theorem State.takeFrame_draws (s : State) : s.takeFrame.draws = s.draws := by
  rw [State.takeFrame_eq]
@[simp] theorem State.takeFrame_pending (s : State) : s.takeFrame.pending = s.pending := by
  rw [State.takeFrame_eq]
@[simp] theorem State.discardFrame_sysHold (s : State) (i : Bool) : (s.discardFrame i).sysHold = s.sysHold := by
  rw [State.discardFrame_eq]
@[simp] theorem State.discardFrame_sysRst (s : State) (i : Bool) : (s.discardFrame i).sysRst = s.sysRst := by
  rw [State.discardFrame_eq]
@[simp] theorem State.discardFrame_pfw (s : State) (i : Bool) : (s.discardFrame i).pfw = s.pfw := by
  rw [State.discardFrame_eq]
@[simp] theorem State.discardFrame_lineMode (s : State) (i : Bool) : (s.discardFrame i).lineMode = s.lineMode := by
  rw [State.discardFrame_eq]
@[simp] theorem State.discardFrame_attn (s : State) (i : Bool) : (s.discardFrame i).attn = s.attn := by
  rw [State.discardFrame_eq]
@[simp] theorem State.discardFrame_lamp (s : State) (i : Bool) : (s.discardFrame i).lamp = s.lamp := by
  rw [State.discardFrame_eq]
@[simp] theorem State.discardFrame_mode (s : State) (i : Bool) : (s.discardFrame i).mode = s.mode := by
  rw [State.discardFrame_eq]
@[simp] theorem State.discardFrame_layout (s : State) (i : Bool) : (s.discardFrame i).layout = s.layout := by
  rw [State.discardFrame_eq]
@[simp] theorem State.discardFrame_upstream (s : State) (i : Bool) : (s.discardFrame i).upstream = s.upstream := by
  rw [State.discardFrame_eq]
@[simp] theorem State.discardFrame_served (s : State) (i : Bool) : (s.discardFrame i).served = s.served := by
  rw [State.discardFrame_eq]
@[simp] theorem State.discardFrame_shadow (s : State) (i : Bool) : (s.discardFrame i).shadow = s.shadow := by
  rw [State.discardFrame_eq]
@[simp] theorem State.discardFrame_counters (s : State) (i : Bool) : (s.discardFrame i).counters = s.counters := by
  rw [State.discardFrame_eq]
@[simp] theorem State.discardFrame_session (s : State) (i : Bool) : (s.discardFrame i).session = s.session := by
  rw [State.discardFrame_eq]
@[simp] theorem State.discardFrame_grid (s : State) (i : Bool) : (s.discardFrame i).grid = s.grid := by
  rw [State.discardFrame_eq]
@[simp] theorem State.discardFrame_report (s : State) (i : Bool) : (s.discardFrame i).report = s.report := by
  rw [State.discardFrame_eq]
@[simp] theorem State.discardFrame_classMap (s : State) (i : Bool) : (s.discardFrame i).classMap = s.classMap := by
  rw [State.discardFrame_eq]
@[simp] theorem State.discardFrame_history (s : State) (i : Bool) : (s.discardFrame i).history = s.history := by
  rw [State.discardFrame_eq]
@[simp] theorem State.discardFrame_watches (s : State) (i : Bool) : (s.discardFrame i).watches = s.watches := by
  rw [State.discardFrame_eq]
@[simp] theorem State.discardFrame_seq (s : State) (i : Bool) : (s.discardFrame i).seq = s.seq := by
  rw [State.discardFrame_eq]
@[simp] theorem State.discardFrame_latest (s : State) (i : Bool) : (s.discardFrame i).latest = s.latest := by
  rw [State.discardFrame_eq]
@[simp] theorem State.discardFrame_keys (s : State) (i : Bool) : (s.discardFrame i).keys = s.keys := by
  rw [State.discardFrame_eq]
@[simp] theorem State.discardFrame_staging (s : State) (i : Bool) : (s.discardFrame i).staging = s.staging := by
  rw [State.discardFrame_eq]
@[simp] theorem State.discardFrame_region (s : State) (i : Bool) : (s.discardFrame i).region = s.region := by
  rw [State.discardFrame_eq]
@[simp] theorem State.discardFrame_conds (s : State) (i : Bool) : (s.discardFrame i).conds = s.conds := by
  rw [State.discardFrame_eq]
@[simp] theorem State.discardFrame_flash (s : State) (i : Bool) : (s.discardFrame i).flash = s.flash := by
  rw [State.discardFrame_eq]
@[simp] theorem State.discardFrame_draws (s : State) (i : Bool) : (s.discardFrame i).draws = s.draws := by
  rw [State.discardFrame_eq]
@[simp] theorem State.discardFrame_pending (s : State) (i : Bool) : (s.discardFrame i).pending = s.pending := by
  rw [State.discardFrame_eq]
@[simp] theorem State.publishFrame_sysHold (s : State) (i : Bool) : (s.publishFrame i).sysHold = s.sysHold := by
  rw [State.publishFrame_eq]
@[simp] theorem State.publishFrame_sysRst (s : State) (i : Bool) : (s.publishFrame i).sysRst = s.sysRst := by
  rw [State.publishFrame_eq]
@[simp] theorem State.publishFrame_pfw (s : State) (i : Bool) : (s.publishFrame i).pfw = s.pfw := by
  rw [State.publishFrame_eq]
@[simp] theorem State.publishFrame_lineMode (s : State) (i : Bool) : (s.publishFrame i).lineMode = s.lineMode := by
  rw [State.publishFrame_eq]
@[simp] theorem State.publishFrame_attn (s : State) (i : Bool) : (s.publishFrame i).attn = s.attn := by
  rw [State.publishFrame_eq]
@[simp] theorem State.publishFrame_lamp (s : State) (i : Bool) : (s.publishFrame i).lamp = s.lamp := by
  rw [State.publishFrame_eq]
@[simp] theorem State.publishFrame_mode (s : State) (i : Bool) : (s.publishFrame i).mode = s.mode := by
  rw [State.publishFrame_eq]
@[simp] theorem State.publishFrame_layout (s : State) (i : Bool) : (s.publishFrame i).layout = s.layout := by
  rw [State.publishFrame_eq]
@[simp] theorem State.publishFrame_upstream (s : State) (i : Bool) : (s.publishFrame i).upstream = s.upstream := by
  rw [State.publishFrame_eq]
@[simp] theorem State.publishFrame_served (s : State) (i : Bool) : (s.publishFrame i).served = s.served := by
  rw [State.publishFrame_eq]
@[simp] theorem State.publishFrame_shadow (s : State) (i : Bool) : (s.publishFrame i).shadow = s.shadow := by
  rw [State.publishFrame_eq]
@[simp] theorem State.publishFrame_counters (s : State) (i : Bool) : (s.publishFrame i).counters = s.counters := by
  rw [State.publishFrame_eq]
@[simp] theorem State.publishFrame_watches (s : State) (i : Bool) : (s.publishFrame i).watches = s.watches := by
  rw [State.publishFrame_eq]
@[simp] theorem State.publishFrame_seq (s : State) (i : Bool) : (s.publishFrame i).seq = s.seq := by
  rw [State.publishFrame_eq]
@[simp] theorem State.publishFrame_latest (s : State) (i : Bool) : (s.publishFrame i).latest = s.latest := by
  rw [State.publishFrame_eq]
@[simp] theorem State.publishFrame_keys (s : State) (i : Bool) : (s.publishFrame i).keys = s.keys := by
  rw [State.publishFrame_eq]
@[simp] theorem State.publishFrame_staging (s : State) (i : Bool) : (s.publishFrame i).staging = s.staging := by
  rw [State.publishFrame_eq]
@[simp] theorem State.publishFrame_region (s : State) (i : Bool) : (s.publishFrame i).region = s.region := by
  rw [State.publishFrame_eq]
@[simp] theorem State.publishFrame_conds (s : State) (i : Bool) : (s.publishFrame i).conds = s.conds := by
  rw [State.publishFrame_eq]
@[simp] theorem State.publishFrame_flash (s : State) (i : Bool) : (s.publishFrame i).flash = s.flash := by
  rw [State.publishFrame_eq]
@[simp] theorem State.publishFrame_draws (s : State) (i : Bool) : (s.publishFrame i).draws = s.draws := by
  rw [State.publishFrame_eq]
@[simp] theorem State.publishFrame_pending (s : State) (i : Bool) : (s.publishFrame i).pending = s.pending := by
  rw [State.publishFrame_eq]
@[simp] theorem State.publishFrame_lock (s : State) (i : Bool) : (s.publishFrame i).grid.lock = s.grid.lock := rfl
@[simp] theorem State.publishFrame_hold (s : State) (i : Bool) : (s.publishFrame i).grid.hold = s.grid.hold := rfl

/-- All that a publish that may take place can do: nothing where no frame waits or the grid is not free, else the discard
or the publish of the SOLVING buffer, and the taking of the next frame. -/
theorem State.publishWaiting_cases (s : State) :
    s.publishWaiting = s ∨ ∃ i, s.engine.state = .publishWait ∧ s.gridFree = true ∧ s.frameIn .solving = some i ∧
      ((s.grid.exhausted = true ∧ s.publishWaiting = (s.discardFrame i).takeFrame) ∨
        (s.grid.exhausted = false ∧ s.publishWaiting = (s.publishFrame i).takeFrame)) := by
  unfold State.publishWaiting
  split
  · rename_i hw
    split
    · rename_i i hi
      refine .inr ⟨i, hw.1, hw.2, hi, ?_⟩
      cases s.grid.exhausted <;> simp
    · exact .inl rfl
  · exact .inl rfl

@[simp] theorem State.publishWaiting_sysHold (s : State) : s.publishWaiting.sysHold = s.sysHold := by
  obtain h | ⟨i, -, -, -, ⟨-, h⟩ | ⟨-, h⟩⟩ := s.publishWaiting_cases <;> simp [h]
@[simp] theorem State.publishWaiting_sysRst (s : State) : s.publishWaiting.sysRst = s.sysRst := by
  obtain h | ⟨i, -, -, -, ⟨-, h⟩ | ⟨-, h⟩⟩ := s.publishWaiting_cases <;> simp [h]
@[simp] theorem State.publishWaiting_pfw (s : State) : s.publishWaiting.pfw = s.pfw := by
  obtain h | ⟨i, -, -, -, ⟨-, h⟩ | ⟨-, h⟩⟩ := s.publishWaiting_cases <;> simp [h]
@[simp] theorem State.publishWaiting_lineMode (s : State) : s.publishWaiting.lineMode = s.lineMode := by
  obtain h | ⟨i, -, -, -, ⟨-, h⟩ | ⟨-, h⟩⟩ := s.publishWaiting_cases <;> simp [h]
@[simp] theorem State.publishWaiting_attn (s : State) : s.publishWaiting.attn = s.attn := by
  obtain h | ⟨i, -, -, -, ⟨-, h⟩ | ⟨-, h⟩⟩ := s.publishWaiting_cases <;> simp [h]
@[simp] theorem State.publishWaiting_lamp (s : State) : s.publishWaiting.lamp = s.lamp := by
  obtain h | ⟨i, -, -, -, ⟨-, h⟩ | ⟨-, h⟩⟩ := s.publishWaiting_cases <;> simp [h]
@[simp] theorem State.publishWaiting_mode (s : State) : s.publishWaiting.mode = s.mode := by
  obtain h | ⟨i, -, -, -, ⟨-, h⟩ | ⟨-, h⟩⟩ := s.publishWaiting_cases <;> simp [h]
@[simp] theorem State.publishWaiting_layout (s : State) : s.publishWaiting.layout = s.layout := by
  obtain h | ⟨i, -, -, -, ⟨-, h⟩ | ⟨-, h⟩⟩ := s.publishWaiting_cases <;> simp [h]
@[simp] theorem State.publishWaiting_upstream (s : State) : s.publishWaiting.upstream = s.upstream := by
  obtain h | ⟨i, -, -, -, ⟨-, h⟩ | ⟨-, h⟩⟩ := s.publishWaiting_cases <;> simp [h]
@[simp] theorem State.publishWaiting_served (s : State) : s.publishWaiting.served = s.served := by
  obtain h | ⟨i, -, -, -, ⟨-, h⟩ | ⟨-, h⟩⟩ := s.publishWaiting_cases <;> simp [h]
@[simp] theorem State.publishWaiting_shadow (s : State) : s.publishWaiting.shadow = s.shadow := by
  obtain h | ⟨i, -, -, -, ⟨-, h⟩ | ⟨-, h⟩⟩ := s.publishWaiting_cases <;> simp [h]
@[simp] theorem State.publishWaiting_counters (s : State) : s.publishWaiting.counters = s.counters := by
  obtain h | ⟨i, -, -, -, ⟨-, h⟩ | ⟨-, h⟩⟩ := s.publishWaiting_cases <;> simp [h]
@[simp] theorem State.publishWaiting_watches (s : State) : s.publishWaiting.watches = s.watches := by
  obtain h | ⟨i, -, -, -, ⟨-, h⟩ | ⟨-, h⟩⟩ := s.publishWaiting_cases <;> simp [h]
@[simp] theorem State.publishWaiting_seq (s : State) : s.publishWaiting.seq = s.seq := by
  obtain h | ⟨i, -, -, -, ⟨-, h⟩ | ⟨-, h⟩⟩ := s.publishWaiting_cases <;> simp [h]
@[simp] theorem State.publishWaiting_latest (s : State) : s.publishWaiting.latest = s.latest := by
  obtain h | ⟨i, -, -, -, ⟨-, h⟩ | ⟨-, h⟩⟩ := s.publishWaiting_cases <;> simp [h]
@[simp] theorem State.publishWaiting_keys (s : State) : s.publishWaiting.keys = s.keys := by
  obtain h | ⟨i, -, -, -, ⟨-, h⟩ | ⟨-, h⟩⟩ := s.publishWaiting_cases <;> simp [h]
@[simp] theorem State.publishWaiting_staging (s : State) : s.publishWaiting.staging = s.staging := by
  obtain h | ⟨i, -, -, -, ⟨-, h⟩ | ⟨-, h⟩⟩ := s.publishWaiting_cases <;> simp [h]
@[simp] theorem State.publishWaiting_region (s : State) : s.publishWaiting.region = s.region := by
  obtain h | ⟨i, -, -, -, ⟨-, h⟩ | ⟨-, h⟩⟩ := s.publishWaiting_cases <;> simp [h]
@[simp] theorem State.publishWaiting_conds (s : State) : s.publishWaiting.conds = s.conds := by
  obtain h | ⟨i, -, -, -, ⟨-, h⟩ | ⟨-, h⟩⟩ := s.publishWaiting_cases <;> simp [h]
@[simp] theorem State.publishWaiting_flash (s : State) : s.publishWaiting.flash = s.flash := by
  obtain h | ⟨i, -, -, -, ⟨-, h⟩ | ⟨-, h⟩⟩ := s.publishWaiting_cases <;> simp [h]
@[simp] theorem State.publishWaiting_draws (s : State) : s.publishWaiting.draws = s.draws := by
  obtain h | ⟨i, -, -, -, ⟨-, h⟩ | ⟨-, h⟩⟩ := s.publishWaiting_cases <;> simp [h]
@[simp] theorem State.publishWaiting_pending (s : State) : s.publishWaiting.pending = s.pending := by
  obtain h | ⟨i, -, -, -, ⟨-, h⟩ | ⟨-, h⟩⟩ := s.publishWaiting_cases <;> simp [h]
@[simp] theorem State.publishWaiting_lock (s : State) : s.publishWaiting.grid.lock = s.grid.lock := by
  obtain h | ⟨i, -, -, -, ⟨-, h⟩ | ⟨-, h⟩⟩ := s.publishWaiting_cases <;> simp [h]
@[simp] theorem State.publishWaiting_hold (s : State) : s.publishWaiting.grid.hold = s.grid.hold := by
  obtain h | ⟨i, -, -, -, ⟨-, h⟩ | ⟨-, h⟩⟩ := s.publishWaiting_cases <;> simp [h]

@[simp] theorem State.unlock_sysHold (s : State) : s.unlock.sysHold = s.sysHold := by
  rw [State.unlock, State.publishWaiting_sysHold]
@[simp] theorem State.unlock_sysRst (s : State) : s.unlock.sysRst = s.sysRst := by
  rw [State.unlock, State.publishWaiting_sysRst]
@[simp] theorem State.unlock_pfw (s : State) : s.unlock.pfw = s.pfw := by
  rw [State.unlock, State.publishWaiting_pfw]
@[simp] theorem State.unlock_lineMode (s : State) : s.unlock.lineMode = s.lineMode := by
  rw [State.unlock, State.publishWaiting_lineMode]
@[simp] theorem State.unlock_attn (s : State) : s.unlock.attn = s.attn := by
  rw [State.unlock, State.publishWaiting_attn]
@[simp] theorem State.unlock_lamp (s : State) : s.unlock.lamp = s.lamp := by
  rw [State.unlock, State.publishWaiting_lamp]
@[simp] theorem State.unlock_mode (s : State) : s.unlock.mode = s.mode := by
  rw [State.unlock, State.publishWaiting_mode]
@[simp] theorem State.unlock_layout (s : State) : s.unlock.layout = s.layout := by
  rw [State.unlock, State.publishWaiting_layout]
@[simp] theorem State.unlock_upstream (s : State) : s.unlock.upstream = s.upstream := by
  rw [State.unlock, State.publishWaiting_upstream]
@[simp] theorem State.unlock_served (s : State) : s.unlock.served = s.served := by
  rw [State.unlock, State.publishWaiting_served]
@[simp] theorem State.unlock_shadow (s : State) : s.unlock.shadow = s.shadow := by
  rw [State.unlock, State.publishWaiting_shadow]
@[simp] theorem State.unlock_counters (s : State) : s.unlock.counters = s.counters := by
  rw [State.unlock, State.publishWaiting_counters]
@[simp] theorem State.unlock_watches (s : State) : s.unlock.watches = s.watches := by
  rw [State.unlock, State.publishWaiting_watches]
@[simp] theorem State.unlock_seq (s : State) : s.unlock.seq = s.seq := by
  rw [State.unlock, State.publishWaiting_seq]
@[simp] theorem State.unlock_latest (s : State) : s.unlock.latest = s.latest := by
  rw [State.unlock, State.publishWaiting_latest]
@[simp] theorem State.unlock_keys (s : State) : s.unlock.keys = s.keys := by
  rw [State.unlock, State.publishWaiting_keys]
@[simp] theorem State.unlock_staging (s : State) : s.unlock.staging = s.staging := by
  rw [State.unlock, State.publishWaiting_staging]
@[simp] theorem State.unlock_region (s : State) : s.unlock.region = s.region := by
  rw [State.unlock, State.publishWaiting_region]
@[simp] theorem State.unlock_conds (s : State) : s.unlock.conds = s.conds := by
  rw [State.unlock, State.publishWaiting_conds]
@[simp] theorem State.unlock_flash (s : State) : s.unlock.flash = s.flash := by
  rw [State.unlock, State.publishWaiting_flash]
@[simp] theorem State.unlock_draws (s : State) : s.unlock.draws = s.draws := by
  rw [State.unlock, State.publishWaiting_draws]
@[simp] theorem State.unlock_pending (s : State) : s.unlock.pending = s.pending := by
  rw [State.unlock, State.publishWaiting_pending]

@[simp] theorem State.releasePanel_sysHold (s : State) : s.releasePanel.sysHold = s.sysHold := by
  unfold State.releasePanel
  split <;> simp
@[simp] theorem State.releasePanel_sysRst (s : State) : s.releasePanel.sysRst = s.sysRst := by
  unfold State.releasePanel
  split <;> simp
@[simp] theorem State.releasePanel_pfw (s : State) : s.releasePanel.pfw = s.pfw := by
  unfold State.releasePanel
  split <;> simp
@[simp] theorem State.releasePanel_lineMode (s : State) : s.releasePanel.lineMode = s.lineMode := by
  unfold State.releasePanel
  split <;> simp
@[simp] theorem State.releasePanel_attn (s : State) : s.releasePanel.attn = s.attn := by
  unfold State.releasePanel
  split <;> simp
@[simp] theorem State.releasePanel_lamp (s : State) : s.releasePanel.lamp = s.lamp := by
  unfold State.releasePanel
  split <;> simp
@[simp] theorem State.releasePanel_mode (s : State) : s.releasePanel.mode = s.mode := by
  unfold State.releasePanel
  split <;> simp
@[simp] theorem State.releasePanel_layout (s : State) : s.releasePanel.layout = s.layout := by
  unfold State.releasePanel
  split <;> simp
@[simp] theorem State.releasePanel_upstream (s : State) : s.releasePanel.upstream = s.upstream := by
  unfold State.releasePanel
  split <;> simp
@[simp] theorem State.releasePanel_served (s : State) : s.releasePanel.served = s.served := by
  unfold State.releasePanel
  split <;> simp
@[simp] theorem State.releasePanel_shadow (s : State) : s.releasePanel.shadow = s.shadow := by
  unfold State.releasePanel
  split <;> simp
@[simp] theorem State.releasePanel_counters (s : State) : s.releasePanel.counters = s.counters := by
  unfold State.releasePanel
  split <;> simp
@[simp] theorem State.releasePanel_watches (s : State) : s.releasePanel.watches = s.watches := by
  unfold State.releasePanel
  split <;> simp
@[simp] theorem State.releasePanel_seq (s : State) : s.releasePanel.seq = s.seq := by
  unfold State.releasePanel
  split <;> simp
@[simp] theorem State.releasePanel_latest (s : State) : s.releasePanel.latest = s.latest := by
  unfold State.releasePanel
  split <;> simp
@[simp] theorem State.releasePanel_keys (s : State) : s.releasePanel.keys = s.keys := by
  unfold State.releasePanel
  split <;> simp
@[simp] theorem State.releasePanel_staging (s : State) : s.releasePanel.staging = s.staging := by
  unfold State.releasePanel
  split <;> simp
@[simp] theorem State.releasePanel_region (s : State) : s.releasePanel.region = s.region := by
  unfold State.releasePanel
  split <;> simp
@[simp] theorem State.releasePanel_conds (s : State) : s.releasePanel.conds = s.conds := by
  unfold State.releasePanel
  split <;> simp
@[simp] theorem State.releasePanel_flash (s : State) : s.releasePanel.flash = s.flash := by
  unfold State.releasePanel
  split <;> simp
@[simp] theorem State.releasePanel_draws (s : State) : s.releasePanel.draws = s.draws := by
  unfold State.releasePanel
  split <;> simp
@[simp] theorem State.releasePanel_pending (s : State) : s.releasePanel.pending = s.pending := by
  unfold State.releasePanel
  split <;> simp

/-! ## lockGrid -/

@[simp] theorem State.lockGrid_sysHold (s : State) (k : JobKind) : (s.lockGrid k).sysHold = s.sysHold := rfl
@[simp] theorem State.lockGrid_sysRst (s : State) (k : JobKind) : (s.lockGrid k).sysRst = s.sysRst := rfl
@[simp] theorem State.lockGrid_pfw (s : State) (k : JobKind) : (s.lockGrid k).pfw = s.pfw := rfl
@[simp] theorem State.lockGrid_lineMode (s : State) (k : JobKind) : (s.lockGrid k).lineMode = s.lineMode := rfl
@[simp] theorem State.lockGrid_attn (s : State) (k : JobKind) : (s.lockGrid k).attn = s.attn := rfl
@[simp] theorem State.lockGrid_lamp (s : State) (k : JobKind) : (s.lockGrid k).lamp = s.lamp := rfl
@[simp] theorem State.lockGrid_mode (s : State) (k : JobKind) : (s.lockGrid k).mode = s.mode := rfl
@[simp] theorem State.lockGrid_layout (s : State) (k : JobKind) : (s.lockGrid k).layout = s.layout := rfl
@[simp] theorem State.lockGrid_upstream (s : State) (k : JobKind) : (s.lockGrid k).upstream = s.upstream := rfl
@[simp] theorem State.lockGrid_served (s : State) (k : JobKind) : (s.lockGrid k).served = s.served := rfl
@[simp] theorem State.lockGrid_shadow (s : State) (k : JobKind) : (s.lockGrid k).shadow = s.shadow := rfl
@[simp] theorem State.lockGrid_counters (s : State) (k : JobKind) : (s.lockGrid k).counters = s.counters := rfl
@[simp] theorem State.lockGrid_intake (s : State) (k : JobKind) : (s.lockGrid k).intake = s.intake := rfl
@[simp] theorem State.lockGrid_session (s : State) (k : JobKind) : (s.lockGrid k).session = s.session := rfl
@[simp] theorem State.lockGrid_frame0 (s : State) (k : JobKind) : (s.lockGrid k).frame0 = s.frame0 := rfl
@[simp] theorem State.lockGrid_frame1 (s : State) (k : JobKind) : (s.lockGrid k).frame1 = s.frame1 := rfl
@[simp] theorem State.lockGrid_engine (s : State) (k : JobKind) : (s.lockGrid k).engine = s.engine := rfl
@[simp] theorem State.lockGrid_report (s : State) (k : JobKind) : (s.lockGrid k).report = s.report := rfl
@[simp] theorem State.lockGrid_classMap (s : State) (k : JobKind) : (s.lockGrid k).classMap = s.classMap := rfl
@[simp] theorem State.lockGrid_history (s : State) (k : JobKind) : (s.lockGrid k).history = s.history := rfl
@[simp] theorem State.lockGrid_watches (s : State) (k : JobKind) : (s.lockGrid k).watches = s.watches := rfl
@[simp] theorem State.lockGrid_seq (s : State) (k : JobKind) : (s.lockGrid k).seq = s.seq := rfl
@[simp] theorem State.lockGrid_latest (s : State) (k : JobKind) : (s.lockGrid k).latest = s.latest := rfl
@[simp] theorem State.lockGrid_keys (s : State) (k : JobKind) : (s.lockGrid k).keys = s.keys := rfl
@[simp] theorem State.lockGrid_staging (s : State) (k : JobKind) : (s.lockGrid k).staging = s.staging := rfl
@[simp] theorem State.lockGrid_region (s : State) (k : JobKind) : (s.lockGrid k).region = s.region := rfl
@[simp] theorem State.lockGrid_conds (s : State) (k : JobKind) : (s.lockGrid k).conds = s.conds := rfl
@[simp] theorem State.lockGrid_flash (s : State) (k : JobKind) : (s.lockGrid k).flash = s.flash := rfl
@[simp] theorem State.lockGrid_draws (s : State) (k : JobKind) : (s.lockGrid k).draws = s.draws := rfl
@[simp] theorem State.lockGrid_pending (s : State) (k : JobKind) : (s.lockGrid k).pending = s.pending := rfl

/-! ## clearStaging -/

@[simp] theorem State.clearStaging_sysHold (s : State) : s.clearStaging.sysHold = s.sysHold := rfl
@[simp] theorem State.clearStaging_sysRst (s : State) : s.clearStaging.sysRst = s.sysRst := rfl
@[simp] theorem State.clearStaging_pfw (s : State) : s.clearStaging.pfw = s.pfw := rfl
@[simp] theorem State.clearStaging_lineMode (s : State) : s.clearStaging.lineMode = s.lineMode := rfl
@[simp] theorem State.clearStaging_attn (s : State) : s.clearStaging.attn = s.attn := rfl
@[simp] theorem State.clearStaging_lamp (s : State) : s.clearStaging.lamp = s.lamp := rfl
@[simp] theorem State.clearStaging_mode (s : State) : s.clearStaging.mode = s.mode := rfl
@[simp] theorem State.clearStaging_layout (s : State) : s.clearStaging.layout = s.layout := rfl
@[simp] theorem State.clearStaging_upstream (s : State) : s.clearStaging.upstream = s.upstream := rfl
@[simp] theorem State.clearStaging_served (s : State) : s.clearStaging.served = s.served := rfl
@[simp] theorem State.clearStaging_shadow (s : State) : s.clearStaging.shadow = s.shadow := rfl
@[simp] theorem State.clearStaging_counters (s : State) : s.clearStaging.counters = s.counters := rfl
@[simp] theorem State.clearStaging_intake (s : State) : s.clearStaging.intake = s.intake := rfl
@[simp] theorem State.clearStaging_session (s : State) : s.clearStaging.session = s.session := rfl
@[simp] theorem State.clearStaging_grid (s : State) : s.clearStaging.grid = s.grid := rfl
@[simp] theorem State.clearStaging_frame0 (s : State) : s.clearStaging.frame0 = s.frame0 := rfl
@[simp] theorem State.clearStaging_frame1 (s : State) : s.clearStaging.frame1 = s.frame1 := rfl
@[simp] theorem State.clearStaging_engine (s : State) : s.clearStaging.engine = s.engine := rfl
@[simp] theorem State.clearStaging_report (s : State) : s.clearStaging.report = s.report := rfl
@[simp] theorem State.clearStaging_classMap (s : State) : s.clearStaging.classMap = s.classMap := rfl
@[simp] theorem State.clearStaging_history (s : State) : s.clearStaging.history = s.history := rfl
@[simp] theorem State.clearStaging_watches (s : State) : s.clearStaging.watches = s.watches := rfl
@[simp] theorem State.clearStaging_seq (s : State) : s.clearStaging.seq = s.seq := rfl
@[simp] theorem State.clearStaging_latest (s : State) : s.clearStaging.latest = s.latest := rfl
@[simp] theorem State.clearStaging_keys (s : State) : s.clearStaging.keys = s.keys := rfl
@[simp] theorem State.clearStaging_region (s : State) : s.clearStaging.region = s.region := rfl
@[simp] theorem State.clearStaging_conds (s : State) : s.clearStaging.conds = s.conds := rfl
@[simp] theorem State.clearStaging_flash (s : State) : s.clearStaging.flash = s.flash := rfl
@[simp] theorem State.clearStaging_draws (s : State) : s.clearStaging.draws = s.draws := rfl
@[simp] theorem State.clearStaging_pending (s : State) : s.clearStaging.pending = s.pending := rfl

/-! ## setDirectory -/

@[simp] theorem State.setDirectory_sysHold (s : State) (k : Nat) (h : Option ProfileHeader) : (s.setDirectory k h).sysHold = s.sysHold := rfl
@[simp] theorem State.setDirectory_sysRst (s : State) (k : Nat) (h : Option ProfileHeader) : (s.setDirectory k h).sysRst = s.sysRst := rfl
@[simp] theorem State.setDirectory_pfw (s : State) (k : Nat) (h : Option ProfileHeader) : (s.setDirectory k h).pfw = s.pfw := rfl
@[simp] theorem State.setDirectory_lineMode (s : State) (k : Nat) (h : Option ProfileHeader) : (s.setDirectory k h).lineMode = s.lineMode := rfl
@[simp] theorem State.setDirectory_attn (s : State) (k : Nat) (h : Option ProfileHeader) : (s.setDirectory k h).attn = s.attn := rfl
@[simp] theorem State.setDirectory_lamp (s : State) (k : Nat) (h : Option ProfileHeader) : (s.setDirectory k h).lamp = s.lamp := rfl
@[simp] theorem State.setDirectory_mode (s : State) (k : Nat) (h : Option ProfileHeader) : (s.setDirectory k h).mode = s.mode := rfl
@[simp] theorem State.setDirectory_layout (s : State) (k : Nat) (h : Option ProfileHeader) : (s.setDirectory k h).layout = s.layout := rfl
@[simp] theorem State.setDirectory_upstream (s : State) (k : Nat) (h : Option ProfileHeader) : (s.setDirectory k h).upstream = s.upstream := rfl
@[simp] theorem State.setDirectory_served (s : State) (k : Nat) (h : Option ProfileHeader) : (s.setDirectory k h).served = s.served := rfl
@[simp] theorem State.setDirectory_shadow (s : State) (k : Nat) (h : Option ProfileHeader) : (s.setDirectory k h).shadow = s.shadow := rfl
@[simp] theorem State.setDirectory_counters (s : State) (k : Nat) (h : Option ProfileHeader) : (s.setDirectory k h).counters = s.counters := rfl
@[simp] theorem State.setDirectory_intake (s : State) (k : Nat) (h : Option ProfileHeader) : (s.setDirectory k h).intake = s.intake := rfl
@[simp] theorem State.setDirectory_session (s : State) (k : Nat) (h : Option ProfileHeader) : (s.setDirectory k h).session = s.session := rfl
@[simp] theorem State.setDirectory_grid (s : State) (k : Nat) (h : Option ProfileHeader) : (s.setDirectory k h).grid = s.grid := rfl
@[simp] theorem State.setDirectory_frame0 (s : State) (k : Nat) (h : Option ProfileHeader) : (s.setDirectory k h).frame0 = s.frame0 := rfl
@[simp] theorem State.setDirectory_frame1 (s : State) (k : Nat) (h : Option ProfileHeader) : (s.setDirectory k h).frame1 = s.frame1 := rfl
@[simp] theorem State.setDirectory_engine (s : State) (k : Nat) (h : Option ProfileHeader) : (s.setDirectory k h).engine = s.engine := rfl
@[simp] theorem State.setDirectory_report (s : State) (k : Nat) (h : Option ProfileHeader) : (s.setDirectory k h).report = s.report := rfl
@[simp] theorem State.setDirectory_classMap (s : State) (k : Nat) (h : Option ProfileHeader) : (s.setDirectory k h).classMap = s.classMap := rfl
@[simp] theorem State.setDirectory_history (s : State) (k : Nat) (h : Option ProfileHeader) : (s.setDirectory k h).history = s.history := rfl
@[simp] theorem State.setDirectory_watches (s : State) (k : Nat) (h : Option ProfileHeader) : (s.setDirectory k h).watches = s.watches := rfl
@[simp] theorem State.setDirectory_seq (s : State) (k : Nat) (h : Option ProfileHeader) : (s.setDirectory k h).seq = s.seq := rfl
@[simp] theorem State.setDirectory_latest (s : State) (k : Nat) (h : Option ProfileHeader) : (s.setDirectory k h).latest = s.latest := rfl
@[simp] theorem State.setDirectory_keys (s : State) (k : Nat) (h : Option ProfileHeader) : (s.setDirectory k h).keys = s.keys := rfl
@[simp] theorem State.setDirectory_staging (s : State) (k : Nat) (h : Option ProfileHeader) : (s.setDirectory k h).staging = s.staging := rfl
@[simp] theorem State.setDirectory_conds (s : State) (k : Nat) (h : Option ProfileHeader) : (s.setDirectory k h).conds = s.conds := rfl
@[simp] theorem State.setDirectory_flash (s : State) (k : Nat) (h : Option ProfileHeader) : (s.setDirectory k h).flash = s.flash := rfl
@[simp] theorem State.setDirectory_draws (s : State) (k : Nat) (h : Option ProfileHeader) : (s.setDirectory k h).draws = s.draws := rfl
@[simp] theorem State.setDirectory_pending (s : State) (k : Nat) (h : Option ProfileHeader) : (s.setDirectory k h).pending = s.pending := rfl

/-! ## charge -/

@[simp] theorem State.charge_sysHold (s : State) (w : Window) (f : CounterSet → CounterSet) : (s.charge w f).sysHold = s.sysHold := rfl
@[simp] theorem State.charge_sysRst (s : State) (w : Window) (f : CounterSet → CounterSet) : (s.charge w f).sysRst = s.sysRst := rfl
@[simp] theorem State.charge_pfw (s : State) (w : Window) (f : CounterSet → CounterSet) : (s.charge w f).pfw = s.pfw := rfl
@[simp] theorem State.charge_lineMode (s : State) (w : Window) (f : CounterSet → CounterSet) : (s.charge w f).lineMode = s.lineMode := rfl
@[simp] theorem State.charge_attn (s : State) (w : Window) (f : CounterSet → CounterSet) : (s.charge w f).attn = s.attn := rfl
@[simp] theorem State.charge_lamp (s : State) (w : Window) (f : CounterSet → CounterSet) : (s.charge w f).lamp = s.lamp := rfl
@[simp] theorem State.charge_mode (s : State) (w : Window) (f : CounterSet → CounterSet) : (s.charge w f).mode = s.mode := rfl
@[simp] theorem State.charge_layout (s : State) (w : Window) (f : CounterSet → CounterSet) : (s.charge w f).layout = s.layout := rfl
@[simp] theorem State.charge_upstream (s : State) (w : Window) (f : CounterSet → CounterSet) : (s.charge w f).upstream = s.upstream := rfl
@[simp] theorem State.charge_served (s : State) (w : Window) (f : CounterSet → CounterSet) : (s.charge w f).served = s.served := rfl
@[simp] theorem State.charge_shadow (s : State) (w : Window) (f : CounterSet → CounterSet) : (s.charge w f).shadow = s.shadow := rfl
@[simp] theorem State.charge_intake (s : State) (w : Window) (f : CounterSet → CounterSet) : (s.charge w f).intake = s.intake := rfl
@[simp] theorem State.charge_session (s : State) (w : Window) (f : CounterSet → CounterSet) : (s.charge w f).session = s.session := rfl
@[simp] theorem State.charge_grid (s : State) (w : Window) (f : CounterSet → CounterSet) : (s.charge w f).grid = s.grid := rfl
@[simp] theorem State.charge_frame0 (s : State) (w : Window) (f : CounterSet → CounterSet) : (s.charge w f).frame0 = s.frame0 := rfl
@[simp] theorem State.charge_frame1 (s : State) (w : Window) (f : CounterSet → CounterSet) : (s.charge w f).frame1 = s.frame1 := rfl
@[simp] theorem State.charge_engine (s : State) (w : Window) (f : CounterSet → CounterSet) : (s.charge w f).engine = s.engine := rfl
@[simp] theorem State.charge_report (s : State) (w : Window) (f : CounterSet → CounterSet) : (s.charge w f).report = s.report := rfl
@[simp] theorem State.charge_classMap (s : State) (w : Window) (f : CounterSet → CounterSet) : (s.charge w f).classMap = s.classMap := rfl
@[simp] theorem State.charge_history (s : State) (w : Window) (f : CounterSet → CounterSet) : (s.charge w f).history = s.history := rfl
@[simp] theorem State.charge_watches (s : State) (w : Window) (f : CounterSet → CounterSet) : (s.charge w f).watches = s.watches := rfl
@[simp] theorem State.charge_seq (s : State) (w : Window) (f : CounterSet → CounterSet) : (s.charge w f).seq = s.seq := rfl
@[simp] theorem State.charge_latest (s : State) (w : Window) (f : CounterSet → CounterSet) : (s.charge w f).latest = s.latest := rfl
@[simp] theorem State.charge_keys (s : State) (w : Window) (f : CounterSet → CounterSet) : (s.charge w f).keys = s.keys := rfl
@[simp] theorem State.charge_staging (s : State) (w : Window) (f : CounterSet → CounterSet) : (s.charge w f).staging = s.staging := rfl
@[simp] theorem State.charge_region (s : State) (w : Window) (f : CounterSet → CounterSet) : (s.charge w f).region = s.region := rfl
@[simp] theorem State.charge_conds (s : State) (w : Window) (f : CounterSet → CounterSet) : (s.charge w f).conds = s.conds := rfl
@[simp] theorem State.charge_flash (s : State) (w : Window) (f : CounterSet → CounterSet) : (s.charge w f).flash = s.flash := rfl
@[simp] theorem State.charge_draws (s : State) (w : Window) (f : CounterSet → CounterSet) : (s.charge w f).draws = s.draws := rfl
@[simp] theorem State.charge_pending (s : State) (w : Window) (f : CounterSet → CounterSet) : (s.charge w f).pending = s.pending := rfl

/-! ## countWatches -/

@[simp] theorem State.countWatches_sysHold (s : State) (t : Txn) : (s.countWatches t).sysHold = s.sysHold := rfl
@[simp] theorem State.countWatches_sysRst (s : State) (t : Txn) : (s.countWatches t).sysRst = s.sysRst := rfl
@[simp] theorem State.countWatches_pfw (s : State) (t : Txn) : (s.countWatches t).pfw = s.pfw := rfl
@[simp] theorem State.countWatches_lineMode (s : State) (t : Txn) : (s.countWatches t).lineMode = s.lineMode := rfl
@[simp] theorem State.countWatches_attn (s : State) (t : Txn) : (s.countWatches t).attn = s.attn := rfl
@[simp] theorem State.countWatches_lamp (s : State) (t : Txn) : (s.countWatches t).lamp = s.lamp := rfl
@[simp] theorem State.countWatches_mode (s : State) (t : Txn) : (s.countWatches t).mode = s.mode := rfl
@[simp] theorem State.countWatches_layout (s : State) (t : Txn) : (s.countWatches t).layout = s.layout := rfl
@[simp] theorem State.countWatches_upstream (s : State) (t : Txn) : (s.countWatches t).upstream = s.upstream := rfl
@[simp] theorem State.countWatches_served (s : State) (t : Txn) : (s.countWatches t).served = s.served := rfl
@[simp] theorem State.countWatches_shadow (s : State) (t : Txn) : (s.countWatches t).shadow = s.shadow := rfl
@[simp] theorem State.countWatches_counters (s : State) (t : Txn) : (s.countWatches t).counters = s.counters := rfl
@[simp] theorem State.countWatches_intake (s : State) (t : Txn) : (s.countWatches t).intake = s.intake := rfl
@[simp] theorem State.countWatches_session (s : State) (t : Txn) : (s.countWatches t).session = s.session := rfl
@[simp] theorem State.countWatches_grid (s : State) (t : Txn) : (s.countWatches t).grid = s.grid := rfl
@[simp] theorem State.countWatches_frame0 (s : State) (t : Txn) : (s.countWatches t).frame0 = s.frame0 := rfl
@[simp] theorem State.countWatches_frame1 (s : State) (t : Txn) : (s.countWatches t).frame1 = s.frame1 := rfl
@[simp] theorem State.countWatches_engine (s : State) (t : Txn) : (s.countWatches t).engine = s.engine := rfl
@[simp] theorem State.countWatches_report (s : State) (t : Txn) : (s.countWatches t).report = s.report := rfl
@[simp] theorem State.countWatches_classMap (s : State) (t : Txn) : (s.countWatches t).classMap = s.classMap := rfl
@[simp] theorem State.countWatches_history (s : State) (t : Txn) : (s.countWatches t).history = s.history := rfl
@[simp] theorem State.countWatches_seq (s : State) (t : Txn) : (s.countWatches t).seq = s.seq := rfl
@[simp] theorem State.countWatches_latest (s : State) (t : Txn) : (s.countWatches t).latest = s.latest := rfl
@[simp] theorem State.countWatches_keys (s : State) (t : Txn) : (s.countWatches t).keys = s.keys := rfl
@[simp] theorem State.countWatches_staging (s : State) (t : Txn) : (s.countWatches t).staging = s.staging := rfl
@[simp] theorem State.countWatches_region (s : State) (t : Txn) : (s.countWatches t).region = s.region := rfl
@[simp] theorem State.countWatches_conds (s : State) (t : Txn) : (s.countWatches t).conds = s.conds := rfl
@[simp] theorem State.countWatches_flash (s : State) (t : Txn) : (s.countWatches t).flash = s.flash := rfl
@[simp] theorem State.countWatches_draws (s : State) (t : Txn) : (s.countWatches t).draws = s.draws := rfl
@[simp] theorem State.countWatches_pending (s : State) (t : Txn) : (s.countWatches t).pending = s.pending := rfl

/-! ## emit -/

@[simp] theorem State.emit_sysHold (s : State) (t : Txn) (b : Byte) : (s.emit t b).sysHold = s.sysHold := rfl
@[simp] theorem State.emit_sysRst (s : State) (t : Txn) (b : Byte) : (s.emit t b).sysRst = s.sysRst := rfl
@[simp] theorem State.emit_pfw (s : State) (t : Txn) (b : Byte) : (s.emit t b).pfw = s.pfw := rfl
@[simp] theorem State.emit_lineMode (s : State) (t : Txn) (b : Byte) : (s.emit t b).lineMode = s.lineMode := rfl
@[simp] theorem State.emit_attn (s : State) (t : Txn) (b : Byte) : (s.emit t b).attn = s.attn := rfl
@[simp] theorem State.emit_lamp (s : State) (t : Txn) (b : Byte) : (s.emit t b).lamp = s.lamp := rfl
@[simp] theorem State.emit_mode (s : State) (t : Txn) (b : Byte) : (s.emit t b).mode = s.mode := rfl
@[simp] theorem State.emit_layout (s : State) (t : Txn) (b : Byte) : (s.emit t b).layout = s.layout := rfl
@[simp] theorem State.emit_shadow (s : State) (t : Txn) (b : Byte) : (s.emit t b).shadow = s.shadow := rfl
@[simp] theorem State.emit_counters (s : State) (t : Txn) (b : Byte) : (s.emit t b).counters = s.counters := rfl
@[simp] theorem State.emit_intake (s : State) (t : Txn) (b : Byte) : (s.emit t b).intake = s.intake := rfl
@[simp] theorem State.emit_session (s : State) (t : Txn) (b : Byte) : (s.emit t b).session = s.session := rfl
@[simp] theorem State.emit_grid (s : State) (t : Txn) (b : Byte) : (s.emit t b).grid = s.grid := rfl
@[simp] theorem State.emit_frame0 (s : State) (t : Txn) (b : Byte) : (s.emit t b).frame0 = s.frame0 := rfl
@[simp] theorem State.emit_frame1 (s : State) (t : Txn) (b : Byte) : (s.emit t b).frame1 = s.frame1 := rfl
@[simp] theorem State.emit_engine (s : State) (t : Txn) (b : Byte) : (s.emit t b).engine = s.engine := rfl
@[simp] theorem State.emit_report (s : State) (t : Txn) (b : Byte) : (s.emit t b).report = s.report := rfl
@[simp] theorem State.emit_classMap (s : State) (t : Txn) (b : Byte) : (s.emit t b).classMap = s.classMap := rfl
@[simp] theorem State.emit_history (s : State) (t : Txn) (b : Byte) : (s.emit t b).history = s.history := rfl
@[simp] theorem State.emit_watches (s : State) (t : Txn) (b : Byte) : (s.emit t b).watches = s.watches := rfl
@[simp] theorem State.emit_seq (s : State) (t : Txn) (b : Byte) : (s.emit t b).seq = s.seq := rfl
@[simp] theorem State.emit_latest (s : State) (t : Txn) (b : Byte) : (s.emit t b).latest = s.latest := rfl
@[simp] theorem State.emit_keys (s : State) (t : Txn) (b : Byte) : (s.emit t b).keys = s.keys := rfl
@[simp] theorem State.emit_staging (s : State) (t : Txn) (b : Byte) : (s.emit t b).staging = s.staging := rfl
@[simp] theorem State.emit_region (s : State) (t : Txn) (b : Byte) : (s.emit t b).region = s.region := rfl
@[simp] theorem State.emit_conds (s : State) (t : Txn) (b : Byte) : (s.emit t b).conds = s.conds := rfl
@[simp] theorem State.emit_flash (s : State) (t : Txn) (b : Byte) : (s.emit t b).flash = s.flash := rfl
@[simp] theorem State.emit_draws (s : State) (t : Txn) (b : Byte) : (s.emit t b).draws = s.draws := rfl
@[simp] theorem State.emit_pending (s : State) (t : Txn) (b : Byte) : (s.emit t b).pending = s.pending := rfl

/-! ## setFrame -/

@[simp] theorem State.setFrame_sysHold (s : State) (i : Bool) (f : Frame) : (s.setFrame i f).sysHold = s.sysHold := by cases i <;> rfl
@[simp] theorem State.setFrame_sysRst (s : State) (i : Bool) (f : Frame) : (s.setFrame i f).sysRst = s.sysRst := by cases i <;> rfl
@[simp] theorem State.setFrame_pfw (s : State) (i : Bool) (f : Frame) : (s.setFrame i f).pfw = s.pfw := by cases i <;> rfl
@[simp] theorem State.setFrame_lineMode (s : State) (i : Bool) (f : Frame) : (s.setFrame i f).lineMode = s.lineMode := by cases i <;> rfl
@[simp] theorem State.setFrame_attn (s : State) (i : Bool) (f : Frame) : (s.setFrame i f).attn = s.attn := by cases i <;> rfl
@[simp] theorem State.setFrame_lamp (s : State) (i : Bool) (f : Frame) : (s.setFrame i f).lamp = s.lamp := by cases i <;> rfl
@[simp] theorem State.setFrame_mode (s : State) (i : Bool) (f : Frame) : (s.setFrame i f).mode = s.mode := by cases i <;> rfl
@[simp] theorem State.setFrame_layout (s : State) (i : Bool) (f : Frame) : (s.setFrame i f).layout = s.layout := by cases i <;> rfl
@[simp] theorem State.setFrame_upstream (s : State) (i : Bool) (f : Frame) : (s.setFrame i f).upstream = s.upstream := by cases i <;> rfl
@[simp] theorem State.setFrame_served (s : State) (i : Bool) (f : Frame) : (s.setFrame i f).served = s.served := by cases i <;> rfl
@[simp] theorem State.setFrame_shadow (s : State) (i : Bool) (f : Frame) : (s.setFrame i f).shadow = s.shadow := by cases i <;> rfl
@[simp] theorem State.setFrame_counters (s : State) (i : Bool) (f : Frame) : (s.setFrame i f).counters = s.counters := by cases i <;> rfl
@[simp] theorem State.setFrame_intake (s : State) (i : Bool) (f : Frame) : (s.setFrame i f).intake = s.intake := by cases i <;> rfl
@[simp] theorem State.setFrame_session (s : State) (i : Bool) (f : Frame) : (s.setFrame i f).session = s.session := by cases i <;> rfl
@[simp] theorem State.setFrame_grid (s : State) (i : Bool) (f : Frame) : (s.setFrame i f).grid = s.grid := by cases i <;> rfl
@[simp] theorem State.setFrame_engine (s : State) (i : Bool) (f : Frame) : (s.setFrame i f).engine = s.engine := by cases i <;> rfl
@[simp] theorem State.setFrame_report (s : State) (i : Bool) (f : Frame) : (s.setFrame i f).report = s.report := by cases i <;> rfl
@[simp] theorem State.setFrame_classMap (s : State) (i : Bool) (f : Frame) : (s.setFrame i f).classMap = s.classMap := by cases i <;> rfl
@[simp] theorem State.setFrame_history (s : State) (i : Bool) (f : Frame) : (s.setFrame i f).history = s.history := by cases i <;> rfl
@[simp] theorem State.setFrame_watches (s : State) (i : Bool) (f : Frame) : (s.setFrame i f).watches = s.watches := by cases i <;> rfl
@[simp] theorem State.setFrame_seq (s : State) (i : Bool) (f : Frame) : (s.setFrame i f).seq = s.seq := by cases i <;> rfl
@[simp] theorem State.setFrame_latest (s : State) (i : Bool) (f : Frame) : (s.setFrame i f).latest = s.latest := by cases i <;> rfl
@[simp] theorem State.setFrame_keys (s : State) (i : Bool) (f : Frame) : (s.setFrame i f).keys = s.keys := by cases i <;> rfl
@[simp] theorem State.setFrame_staging (s : State) (i : Bool) (f : Frame) : (s.setFrame i f).staging = s.staging := by cases i <;> rfl
@[simp] theorem State.setFrame_region (s : State) (i : Bool) (f : Frame) : (s.setFrame i f).region = s.region := by cases i <;> rfl
@[simp] theorem State.setFrame_conds (s : State) (i : Bool) (f : Frame) : (s.setFrame i f).conds = s.conds := by cases i <;> rfl
@[simp] theorem State.setFrame_flash (s : State) (i : Bool) (f : Frame) : (s.setFrame i f).flash = s.flash := by cases i <;> rfl
@[simp] theorem State.setFrame_draws (s : State) (i : Bool) (f : Frame) : (s.setFrame i f).draws = s.draws := by cases i <;> rfl
@[simp] theorem State.setFrame_pending (s : State) (i : Bool) (f : Frame) : (s.setFrame i f).pending = s.pending := by cases i <;> rfl

/-! ## raise -/

@[simp] theorem State.raise_sysHold (s : State) (r : Report) : (s.raise r).sysHold = s.sysHold := by
  simp only [State.raise]; split
  · rfl
  · split <;> rfl
@[simp] theorem State.raise_sysRst (s : State) (r : Report) : (s.raise r).sysRst = s.sysRst := by
  simp only [State.raise]; split
  · rfl
  · split <;> rfl
@[simp] theorem State.raise_pfw (s : State) (r : Report) : (s.raise r).pfw = s.pfw := by
  simp only [State.raise]; split
  · rfl
  · split <;> rfl
@[simp] theorem State.raise_lineMode (s : State) (r : Report) : (s.raise r).lineMode = s.lineMode := by
  simp only [State.raise]; split
  · rfl
  · split <;> rfl
@[simp] theorem State.raise_attn (s : State) (r : Report) : (s.raise r).attn = s.attn := by
  simp only [State.raise]; split
  · rfl
  · split <;> rfl
@[simp] theorem State.raise_lamp (s : State) (r : Report) : (s.raise r).lamp = s.lamp := by
  simp only [State.raise]; split
  · rfl
  · split <;> rfl
@[simp] theorem State.raise_mode (s : State) (r : Report) : (s.raise r).mode = s.mode := by
  simp only [State.raise]; split
  · rfl
  · split <;> rfl
@[simp] theorem State.raise_layout (s : State) (r : Report) : (s.raise r).layout = s.layout := by
  simp only [State.raise]; split
  · rfl
  · split <;> rfl
@[simp] theorem State.raise_upstream (s : State) (r : Report) : (s.raise r).upstream = s.upstream := by
  simp only [State.raise]; split
  · rfl
  · split <;> rfl
@[simp] theorem State.raise_served (s : State) (r : Report) : (s.raise r).served = s.served := by
  simp only [State.raise]; split
  · rfl
  · split <;> rfl
@[simp] theorem State.raise_shadow (s : State) (r : Report) : (s.raise r).shadow = s.shadow := by
  simp only [State.raise]; split
  · rfl
  · split <;> rfl
@[simp] theorem State.raise_counters (s : State) (r : Report) : (s.raise r).counters = s.counters := by
  simp only [State.raise]; split
  · rfl
  · split <;> rfl
@[simp] theorem State.raise_intake (s : State) (r : Report) : (s.raise r).intake = s.intake := by
  simp only [State.raise]; split
  · rfl
  · split <;> rfl
@[simp] theorem State.raise_session (s : State) (r : Report) : (s.raise r).session = s.session := by
  simp only [State.raise]; split
  · rfl
  · split <;> rfl
@[simp] theorem State.raise_grid (s : State) (r : Report) : (s.raise r).grid = s.grid := by
  simp only [State.raise]; split
  · rfl
  · split <;> rfl
@[simp] theorem State.raise_frame0 (s : State) (r : Report) : (s.raise r).frame0 = s.frame0 := by
  simp only [State.raise]; split
  · rfl
  · split <;> rfl
@[simp] theorem State.raise_frame1 (s : State) (r : Report) : (s.raise r).frame1 = s.frame1 := by
  simp only [State.raise]; split
  · rfl
  · split <;> rfl
@[simp] theorem State.raise_engine (s : State) (r : Report) : (s.raise r).engine = s.engine := by
  simp only [State.raise]; split
  · rfl
  · split <;> rfl
@[simp] theorem State.raise_report (s : State) (r : Report) : (s.raise r).report = s.report := by
  simp only [State.raise]; split
  · rfl
  · split <;> rfl
@[simp] theorem State.raise_classMap (s : State) (r : Report) : (s.raise r).classMap = s.classMap := by
  simp only [State.raise]; split
  · rfl
  · split <;> rfl
@[simp] theorem State.raise_history (s : State) (r : Report) : (s.raise r).history = s.history := by
  simp only [State.raise]; split
  · rfl
  · split <;> rfl
@[simp] theorem State.raise_watches (s : State) (r : Report) : (s.raise r).watches = s.watches := by
  simp only [State.raise]; split
  · rfl
  · split <;> rfl
@[simp] theorem State.raise_seq (s : State) (r : Report) : (s.raise r).seq = s.seq := by
  simp only [State.raise]; split
  · rfl
  · split <;> rfl
@[simp] theorem State.raise_latest (s : State) (r : Report) : (s.raise r).latest = s.latest := by
  simp only [State.raise]; split
  · rfl
  · split <;> rfl
@[simp] theorem State.raise_keys (s : State) (r : Report) : (s.raise r).keys = s.keys := by
  simp only [State.raise]; split
  · rfl
  · split <;> rfl
@[simp] theorem State.raise_staging (s : State) (r : Report) : (s.raise r).staging = s.staging := by
  simp only [State.raise]; split
  · rfl
  · split <;> rfl
@[simp] theorem State.raise_region (s : State) (r : Report) : (s.raise r).region = s.region := by
  simp only [State.raise]; split
  · rfl
  · split <;> rfl
@[simp] theorem State.raise_flash (s : State) (r : Report) : (s.raise r).flash = s.flash := by
  simp only [State.raise]; split
  · rfl
  · split <;> rfl
@[simp] theorem State.raise_draws (s : State) (r : Report) : (s.raise r).draws = s.draws := by
  simp only [State.raise]; split
  · rfl
  · split <;> rfl
@[simp] theorem State.raise_pending (s : State) (r : Report) : (s.raise r).pending = s.pending := by
  simp only [State.raise]; split
  · rfl
  · split <;> rfl

/-! ## What the updates write -/

@[simp] theorem State.settle_attn (s : State) : s.settle.attn = s.conds.attn := rfl
@[simp] theorem State.settle_lamp (s : State) : s.settle.lamp = s.lamp.choose (s.lampPattern s.conds.attn) := rfl
@[simp] theorem State.settle_timer (s : State) : s.settle.session.timer = s.timerNow := rfl
@[simp] theorem State.settle_sessionState (s : State) : s.settle.session.state = s.session.state := rfl
@[simp] theorem State.settle_station (s : State) : s.settle.session.station = s.session.station := rfl
@[simp] theorem State.settle_day (s : State) : s.settle.session.day = s.session.day := rfl
@[simp] theorem State.settle_seconds (s : State) : s.settle.session.seconds = s.session.seconds := rfl
@[simp] theorem State.settle_timeValid (s : State) : s.settle.session.timeValid = s.session.timeValid := rfl
@[simp] theorem State.settle_publishSeen (s : State) : s.settle.session.publishSeen = s.session.publishSeen := rfl
@[simp] theorem State.withActive_active (s : State) (a : Active) : (s.withActive a).seq.active = some a := rfl
@[simp] theorem State.withActive_waiting (s : State) (a : Active) : (s.withActive a).seq.waiting = s.seq.waiting := rfl
@[simp] theorem State.withActive_tally (s : State) (a : Active) : (s.withActive a).seq.tally = s.seq.tally := rfl
@[simp] theorem State.withActive_buffer (s : State) (a : Active) : (s.withActive a).seq.buffer = s.seq.buffer := rfl
@[simp] theorem State.queueJob_waiting (s : State) (j : Job) : (s.queueJob j).seq.waiting = s.seq.waiting ++ [j] := rfl
@[simp] theorem State.queueJob_active (s : State) (j : Job) : (s.queueJob j).seq.active = s.seq.active := rfl
@[simp] theorem State.noteRecord_lastTag (s : State) (t : Byte) (r : Result) : (s.noteRecord t r).intake.lastTag = t := rfl
@[simp] theorem State.noteRecord_lastResult (s : State) (t : Byte) (r : Result) :
    (s.noteRecord t r).intake.lastResult = r := rfl
@[simp] theorem State.noteRecord_recordCount (s : State) (t : Byte) (r : Result) :
    (s.noteRecord t r).intake.recordCount = (s.intake.recordCount + 1) % 65536 := rfl
@[simp] theorem State.noteRecord_outcomes (s : State) (t : Byte) (r : Result) :
    (s.noteRecord t r).intake.outcomes = s.intake.outcomes := rfl
@[simp] theorem State.noteRecord_closeOutIndex (s : State) (t : Byte) (r : Result) :
    (s.noteRecord t r).intake.closeOutIndex = s.intake.closeOutIndex := rfl
@[simp] theorem State.setKey_keys (s : State) (k : Nat) (e : KeyEntry) : (s.setKey k e).keys = s.keys.set k e := rfl
@[simp] theorem State.unlock_lock (s : State) : s.unlock.grid.lock = none := by
  simp [State.unlock]
@[simp] theorem State.lockGrid_lock (s : State) (k : JobKind) : (s.lockGrid k).grid.lock = some k := rfl
@[simp] theorem State.clearStaging_staging (s : State) : s.clearStaging.staging = Staging.idle := rfl
@[simp] theorem State.emit_served (s : State) (t : Txn) (b : Byte) : (s.emit t b).served = s.served ++ [b] := rfl
@[simp] theorem State.emit_upstream (s : State) (t : Txn) (b : Byte) :
    (s.emit t b).upstream = some { t with served := t.served + 1 } := rfl
@[simp] theorem State.setFrame_frame (s : State) (i : Bool) (f : Frame) : (s.setFrame i f).frame i = f := by
  cases i <;> rfl
@[simp] theorem State.setFrame_other (s : State) (i : Bool) (f : Frame) : (s.setFrame i f).frame (!i) = s.frame (!i) := by
  cases i <;> rfl
@[simp] theorem State.setFrame_false (s : State) (f : Frame) : s.setFrame false f = { s with frame0 := f } := rfl
@[simp] theorem State.setFrame_true (s : State) (f : Frame) : s.setFrame true f = { s with frame1 := f } := rfl

end Sys2Proof.Machine
end

