-- ==== Sys2Proof/Laws/Operations.lean ====
section
/-! SUPPORT. For each shared operation one lemma that says everything it can do, to be cited in place of unfolding it. -/

namespace Sys2Proof.Machine

/-! ## The lines -/

/-- Judging the lines twice is judging them once. -/
@[simp] theorem State.settle_settle (s : State) : s.settle.settle = s.settle := by
  have h : s.settle.lampPattern s.settle.conds.attn = s.lampPattern s.conds.attn := rfl
  have t : s.settle.timerNow = s.timerNow := rfl
  have c : (s.lamp.choose (s.lampPattern s.conds.attn)).choose (s.lampPattern s.conds.attn) =
      s.lamp.choose (s.lampPattern s.conds.attn) := by
    by_cases e : s.lamp.pattern = s.lampPattern s.conds.attn
    · simp only [Lamp.choose, e, if_true]
    · simp only [Lamp.choose, e, if_true, if_false]
  unfold State.settle at h t ⊢
  simp only [h, t, c]

/-- The lamp shows the pattern chosen. -/
@[simp] theorem Lamp.choose_pattern (l : Lamp) (p : LampPattern) : (l.choose p).pattern = p := by
  unfold Lamp.choose
  split
  · assumption
  · rfl

/-! ## Reports (R179) -/

/-- A report merges into a record it joins, makes a new record at the tail, or, in a full queue, marks the newest record;
the known-fault list follows step 1. -/
theorem State.raise_cases (s : State) (r : Report) :
    ((∃ x ∈ s.conds.records, x.joins r = true) ∧
      (s.raise r).conds = { s.conds with known := (knownFault s.conds.known r).2, records := mergeFirst r s.conds.records }) ∨
    ((∀ x ∈ s.conds.records, x.joins r = false) ∧ s.conds.records.length < 16 ∧
      (s.raise r).conds = { s.conds with
        known := (knownFault s.conds.known r).2
        records := s.conds.records ++ [s.newRecord r (knownFault s.conds.known r).1 ((s.conds.counter + 1) % 65536)]
        counter := (s.conds.counter + 1) % 65536 }) ∨
    ((∀ x ∈ s.conds.records, x.joins r = false) ∧ 16 ≤ s.conds.records.length ∧
      (s.raise r).conds = { s.conds with
        known := (knownFault s.conds.known r).2
        records := modifyLast (fun x => x.overflowed r.parkNotQueued) s.conds.records }) := by
  unfold State.raise
  by_cases h : s.conds.records.any (fun x => x.joins r) = true
  · rw [if_pos h]
    exact .inl ⟨by simpa using h, rfl⟩
  · have none : ∀ x ∈ s.conds.records, x.joins r = false := by simpa using h
    rw [if_neg h]
    by_cases l : s.conds.records.length < 16
    · rw [if_pos l]
      exact .inr (.inl ⟨none, l, rfl⟩)
    · rw [if_neg l]
      exact .inr (.inr ⟨none, Nat.le_of_not_lt l, rfl⟩)

/-- A report changes the Condition Queue alone. -/
theorem State.raise_eq (s : State) (r : Report) : s.raise r = { s with conds := (s.raise r).conds } := by
  unfold State.raise
  dsimp only
  split
  · rfl
  · split <;> rfl

/-- Several reports change the Condition Queue alone. -/
theorem State.raiseAll_eq (s : State) (rs : List Report) : s.raiseAll rs = { s with conds := (s.raiseAll rs).conds } := by
  induction rs generalizing s with
  | nil => rfl
  | cons r t ih =>
    have e := congrArg (fun (x : State) => { x with conds := ((s.raise r).raiseAll t).conds }) (s.raise_eq r)
    exact (ih (s.raise r)).trans e

/-- Merging keeps the number of records. -/
@[simp] theorem mergeFirst_length (r : Report) (q : List CondRecord) : (mergeFirst r q).length = q.length := by
  induction q with
  | nil => rfl
  | cons c t ih =>
    unfold mergeFirst
    split
    · rfl
    · simp [ih]

/-- Marking the newest record keeps the number of records. -/
@[simp] theorem modifyLast_length (f : CondRecord → CondRecord) (q : List CondRecord) : (modifyLast f q).length = q.length := by
  induction q with
  | nil => rfl
  | cons c t ih =>
    cases t with
    | nil => rfl
    | cons d t => simpa [modifyLast] using ih

/-! ## Records (R29 to R33) -/

/-- A record whose session state refuses its kind gets that refusal. -/
theorem State.recordCommand_refused {s : State} {k : Kind} {r : Result} (tag : Byte) (body : List Byte)
    (h : s.recordsReach = true) (hr : sessionRefusal s.session.state k = some r) :
    s.recordCommand k tag body = s.answered tag r := by
  simp only [State.recordCommand, h, State.takeRecord, judgeRecord, hr, State.answered, if_true]

/-- A record of a kind the session state takes, with a body long enough, is answered as its owner judges. -/
theorem State.recordCommand_judged {s : State} {k : Kind} (tag : Byte) {body : List Byte} (h : s.recordsReach = true)
    (hn : sessionRefusal s.session.state k = none) (hl : k.bodyLength ≤ body.length) :
    s.recordCommand k tag body = (judgeKind k tag body s).1.answered tag (judgeKind k tag body s).2 := by
  simp only [State.recordCommand, h, State.takeRecord, judgeRecord, hn, Nat.not_lt.mpr hl, State.answered, if_true, if_false]

/-- In OPEN no kind is refused by the session state. -/
@[simp] theorem sessionRefusal_opened (k : Kind) : sessionRefusal .opened k = none := rfl

/-- In OPEN a record with a body long enough is answered as its owner judges. -/
theorem State.recordCommand_open {s : State} {k : Kind} (tag : Byte) {body : List Byte} (h : s.inOpen = true)
    (hl : k.bodyLength ≤ body.length) :
    s.recordCommand k tag body = (judgeKind k tag body s).1.answered tag (judgeKind k tag body s).2 := by
  simp only [State.inOpen, Bool.and_eq_true, decide_eq_true_eq] at h
  exact State.recordCommand_judged tag h.1 (by rw [h.2]; rfl) hl

/-- A record that cannot reach the part changes nothing. -/
theorem State.recordCommand_unreached {s : State} (k : Kind) (tag : Byte) (body : List Byte) (h : s.recordsReach = false) :
    s.recordCommand k tag body = s.settle := by
  simp [State.recordCommand, h]

/-! ## The lane (R1, R12) -/

/-- A served, free lane: no hold, no reset, no transaction, no panel read hold. -/
theorem State.laneFree_iff (s : State) :
    s.laneFree = true ↔ s.sysHold = false ∧ s.sysRst = false ∧ s.upstream = none ∧ s.grid.hold = false := by
  simp [State.laneFree, and_assoc]

/-- On a lane with no transaction in progress a whole command selects, passes its bytes and deselects. -/
theorem State.lane_whole {s : State} (h : s.upstream = none) (c : LaneCommand) (a : Nat) (f : State → State) :
    s.lane .whole c a f = (f (s.select c a)).deselect := by
  simp [State.lane, h]

/-- Inside an occupied period there is no read to cut. -/
theorem State.cutRead_occupied {s : State} (h : s.occupied = true) : s.cutRead = s := by
  obtain ⟨a, ha, hp⟩ : ∃ a, s.seq.active = some a ∧ a.phase = .occupied := by
    unfold State.occupied at h
    split at h
    · exact ⟨_, ‹_›, by simpa using h⟩
    · cases h
  have : a.cut = a := by simp [Active.cut, hp]
  unfold State.cutRead
  rw [ha, Option.map_some, this, ← ha]

/-- A cut keeps the job, its stage, its steps and its data. -/
theorem Active.cut_keeps (a : Active) :
    a.cut.job = a.job ∧ a.cut.stage = a.stage ∧ a.cut.todo = a.todo ∧ a.cut.data = a.data ∧
      (a.cut.phase = .occupied ↔ a.phase = .occupied) := by
  unfold Active.cut
  split
  · simp
  · rename_i h
    refine ⟨rfl, rfl, rfl, rfl, ?_⟩
    constructor
    · intro h'
      cases h'
    · intro h'
      exact absurd h' h

/-! ## The Solve Engine (R63, R78) -/

/-- An IDLE engine takes the QUEUED frame; nothing else changes. -/
theorem State.takeFrame_cases (s : State) :
    (∃ i, s.engine.state = .idle ∧ s.frameIn .queued = some i ∧
      s.takeFrame = { s.setFrame i { s.frame i with state := .solving } with
        engine := { state := .computing, results := [], largest := 0 } }) ∨
    (s.takeFrame = s ∧ (s.engine.state = .idle → s.frameIn .queued = none)) := by
  unfold State.takeFrame
  by_cases h : s.engine.state = .idle
  · rw [if_pos h]
    cases hq : s.frameIn .queued with
    | none => exact .inr ⟨rfl, fun _ => rfl⟩
    | some i => exact .inl ⟨i, h, rfl, rfl⟩
  · rw [if_neg h]
    exact .inr ⟨rfl, fun e => absurd e h⟩

/-- The buffer in a state is a buffer in that state. -/
theorem State.frameIn_some {s : State} {st : FrameState} {i : Bool} (h : s.frameIn st = some i) : (s.frame i).state = st := by
  unfold State.frameIn at h
  split at h
  · cases h
    assumption
  · split at h
    · cases h
      assumption
    · cases h

/-! ## The Flash Sequencer (R122, R124, R127) -/

/-- A step's completion leads to the next step, to the append's end, to the job's end, or to its append. -/
theorem State.proceed_cases (s : State) (l : Layout) (a : Active) (rest : List Step) :
    (rest ≠ [] ∧ s.proceed l a rest = s.withActive { a with todo := rest, phase := .waiting }) ∨
    (rest = [] ∧ a.stage = .append ∧ s.proceed l a rest = s.appendDone a) ∨
    (rest = [] ∧ a.stage = .work ∧ a.job.kind.appendsNone = true ∧ s.proceed l a rest = s.endJob a .done 0) ∨
    (rest = [] ∧ a.stage = .work ∧ a.job.kind.appendsNone = false ∧ s.proceed l a rest = s.startAppend l a) := by
  unfold State.proceed
  cases rest with
  | cons x t => exact .inl ⟨by simp, rfl⟩
  | nil =>
    cases hs : a.stage with
    | append => exact .inr (.inl ⟨rfl, rfl, rfl⟩)
    | work =>
      cases hk : a.job.kind.appendsNone with
      | true => exact .inr (.inr (.inl ⟨rfl, rfl, rfl, by simp⟩))
      | false => exact .inr (.inr (.inr ⟨rfl, rfl, rfl, by simp⟩))

/-- Where no frame waits to publish, nothing does. -/
theorem State.publishWaiting_quiet {s : State} (h : s.engine.state ≠ .publishWait) : s.publishWaiting = s := by
  obtain e | ⟨_, hw, _⟩ := s.publishWaiting_cases
  · exact e
  · exact absurd hw h

/-- An ended job leaves no job in progress, and the jobs that wait, the latest record, the flash and the lane as they
stood. -/
theorem State.endJob_fields (s : State) (a : Active) (o : JobOutcome) (g : Nat) :
    (s.endJob a o g).seq.active = none ∧ (s.endJob a o g).seq.waiting = s.seq.waiting ∧
    (s.endJob a o g).latest = s.latest ∧ (s.endJob a o g).flash = s.flash ∧ (s.endJob a o g).upstream = s.upstream ∧
    (s.endJob a o g).mode = s.mode ∧ (s.endJob a o g).layout = s.layout := by
  unfold State.endJob State.endActions
  split <;> (try split) <;> simp [State.setKey, State.clearStaging, State.damageKey, State.unlock]

/-- Where no frame waits to publish, an ended job writes its outcome entry alone, and leaves the codes and the generation. -/
theorem State.endJob_quiet (s : State) (a : Active) (o : JobOutcome) (g : Nat) (h : s.engine.state ≠ .publishWait) :
    (s.endJob a o g).intake.outcomes = recordOutcome s.intake.outcomes (a.job.kind.code - 1) a.job.tag o g ∧
    (s.endJob a o g).grid.codes = s.grid.codes ∧ (s.endJob a o g).grid.generation = s.grid.generation := by
  unfold State.endJob State.endActions
  split <;> (try split) <;>
    simp [State.unlock, State.setKey, State.clearStaging, State.damageKey, State.publishWaiting_quiet, h]

/-- With a job in progress no waiting job starts. -/
theorem State.startDue_busy {s : State} {a : Active} (h : s.seq.active = some a) : s.startDue = s := by
  unfold State.startDue
  cases s.layout with
  | none => rfl
  | some l => cases hw : s.seq.waiting <;> simp [State.startFrom, h]

/-- With no waiting job none starts. -/
theorem State.startDue_empty {s : State} (h : s.seq.waiting = []) : s.startDue = s := by
  unfold State.startDue
  cases s.layout <;> simp [h, State.startFrom]

/-- The append turns to a target slot with the job as it stands. -/
theorem State.probeSlotOfRing_active (s : State) (l : Layout) (a : Active) (t : Nat) :
    ∃ b, (s.probeSlotOfRing l a t).seq.active = some b ∧ b.job = a.job ∧ b.stage = .append ∧ b.data.record = a.data.record ∧
      b.data.target = t :=
  ⟨_, rfl, rfl, rfl, rfl, rfl⟩

/-! ## The start-up load -/

/-- A step of the load that PFW may assert in changes the line and the conditions alone. -/
theorem State.pfwAt_eq (s : State) (i : PowerOnInput) (n : Nat) :
    s.pfwAt i n = { s with pfw := (s.pfwAt i n).pfw, conds := (s.pfwAt i n).conds } := by
  unfold State.pfwAt
  split
  · rw [State.pfwRise, State.raise_eq]
  · rfl

/-- The line after such a step. -/
theorem State.pfwAt_pfw (s : State) (i : PowerOnInput) (n : Nat) :
    (s.pfwAt i n).pfw = (s.pfw || decide (i.pfwStep = some n)) := by
  unfold State.pfwAt
  split
  · rw [State.pfwRise, State.raise_eq]; simp_all
  · simp_all

/-- Loading a key slot's block changes the key table and the conditions alone. -/
theorem State.loadKey_eq (s : State) (slot : Nat) (block : List Byte) :
    s.loadKey slot block = { s with keys := (s.loadKey slot block).keys, conds := (s.loadKey slot block).conds } := by
  unfold State.loadKey
  dsimp only
  split
  · rfl
  · split
    · rw [State.damageKey, State.raise_eq]; rfl
    · split
      · rw [State.damageKey, State.raise_eq]; rfl
      · rfl

/-- Loading the key table changes the table and the conditions alone. -/
theorem State.loadKeys_eq (s : State) (l : Layout) (m : Memory) (ks : List Nat) :
    s.loadKeys l m ks = { s with keys := (s.loadKeys l m ks).keys, conds := (s.loadKeys l m ks).conds } := by
  induction ks generalizing s with
  | nil => rfl
  | cons k t ih => rw [State.loadKeys, ih]; rw [State.loadKey_eq]

/-- Resume changes the grid, the class map and the conditions alone. -/
theorem State.resume_eq (s : State) (l : Layout) (m : Memory) :
    s.resume l m =
      { s with grid := (s.resume l m).grid, classMap := (s.resume l m).classMap, conds := (s.resume l m).conds } := by
  unfold State.resume
  split
  · rfl
  · dsimp only
    rw [State.raiseAll_eq]

/-- The region's load changes the region and the conditions alone. -/
theorem State.loadRegion_eq (s : State) (l : Layout) (m : Memory) :
    s.loadRegion l m = { s with region := (s.loadRegion l m).region, conds := (s.loadRegion l m).conds } := by
  unfold State.loadRegion
  split
  · unfold State.loadClasses
    dsimp only
    split
    · split <;> rfl
    · split
      · rfl
      · rw [State.raise_eq]
  · rfl

/-! ## The commit record of an append -/

/-- The record built for an append is all that a job gains as its step begins. -/
theorem State.withRecord_eq (s : State) (a : Active) :
    s.withRecord a = { a with data := { a.data with record := (s.withRecord a).data.record } } := by
  unfold State.withRecord
  split <;> rfl

/-- A job that is not appending, or has its record, gains none. -/
theorem State.withRecord_keeps (s : State) (a : Active) (h : a.stage = .append → a.data.record ≠ none) :
    s.withRecord a = a := by
  unfold State.withRecord
  split
  · exact absurd ‹_ ∧ _›.2 (h ‹_ ∧ _›.1)
  · rfl

/-- Bit `c` of a class set stands for class `c`, 1..15 (R163). -/
theorem classBits_testBit (cs : List Nat) (c : Nat) : (classBits cs).testBit c = decide (1 ≤ c ∧ c ≤ 15 ∧ c ∈ cs) := by
  have key : ∀ (n : Nat) (p : Nat → Bool), (((List.range n).filter p).map (fun c => 2 ^ c)).sum < 2 ^ n ∧
      ∀ c, (((List.range n).filter p).map (fun c => 2 ^ c)).sum.testBit c = (decide (c < n) && p c) := by
    intro n p
    induction n with
    | zero => simp
    | succ n ih =>
      obtain ⟨hlt, hbit⟩ := ih
      rw [List.range_succ, List.filter_append, List.map_append, List.sum_append]
      cases hp : p n with
      | false =>
        simp only [List.filter_cons, hp, List.filter_nil]
        refine ⟨by simpa using Nat.lt_of_lt_of_le hlt (Nat.pow_le_pow_right (by omega) (Nat.le_succ n)), fun c => ?_⟩
        simp only [Bool.false_eq_true, if_false, List.map_nil, List.sum_nil, Nat.add_zero, hbit]
        by_cases h : c = n
        · subst h; simp [hp]
        · congr 1; simp; omega
      | true =>
        simp only [List.filter_cons, hp, List.filter_nil, if_true, List.map_cons, List.map_nil, List.sum_cons, List.sum_nil,
          Nat.add_zero]
        refine ⟨by rw [Nat.pow_succ]; omega, fun c => ?_⟩
        rw [Nat.add_comm]
        by_cases h : c = n
        · subst h
          rw [Nat.testBit_two_pow_add_eq, Nat.testBit_lt_two_pow hlt]; simp [hp]
        · rcases Nat.lt_or_gt_of_ne h with h' | h'
          · rw [Nat.testBit_two_pow_add_gt h', hbit]
            congr 1; simp; omega
          · rw [Nat.testBit_lt_two_pow]
            · simp; omega
            · calc _ < 2 ^ n + 2 ^ n := by omega
                _ = 2 ^ (n + 1) := by rw [Nat.pow_succ]; omega
                _ ≤ 2 ^ c := Nat.pow_le_pow_right (by omega) h'
  unfold classBits
  rw [(key 16 _).2 c, Bool.eq_iff_iff]
  simp only [Bool.and_eq_true, decide_eq_true_eq, List.contains_iff_mem]
  exact ⟨fun h => ⟨h.2.1, by omega, h.2.2⟩, fun h => ⟨by omega, h.1, h.2.2⟩⟩

/-! ## Windows, the first test of R150, and a frame's results -/

/-- An address lies in a window from its base up to its base plus its size (R16). -/
theorem Layout.inWindow_iff (l : Layout) (w : Window) (a : Nat) :
    l.inWindow w a = true ↔ l.base w ≤ a ∧ a < l.base w + w.size := by
  simp only [Layout.inWindow, Bool.and_eq_true, decide_eq_true_eq]

/-- Two windows that share no address, read as a relation of their bases and sizes (R16). -/
theorem Layout.disjoint_iff (l : Layout) (v w : Window) :
    l.disjoint v w = true ↔ l.base v + v.size ≤ l.base w ∨ l.base w + w.size ≤ l.base v := by
  simp only [Layout.disjoint, Bool.or_eq_true, decide_eq_true_eq]

/-- `pairwiseDisjoint` is `List.Pairwise` of disjoint windows. -/
theorem Layout.pairwiseDisjoint_iff (l : Layout) (ws : List Window) :
    l.pairwiseDisjoint ws = true ↔ ws.Pairwise (fun v w => l.disjoint v w = true) := by
  induction ws with
  | nil => simp [Layout.pairwiseDisjoint]
  | cons w t ih => simp only [Layout.pairwiseDisjoint, Bool.and_eq_true, List.all_eq_true, List.pairwise_cons, ih]

/-- What a valid layout is: conditions 3 to 5 of R16. -/
theorem Layout.valid_iff (l : Layout) :
    l.valid = true ↔ (∀ w ∈ nineWindows, l.base w % w.alignment = 0 ∧ l.base w + w.size ≤ flashSize) ∧
      nineWindows.Pairwise (fun v w => l.base v + v.size ≤ l.base w ∨ l.base w + w.size ≤ l.base v) := by
  simp only [Layout.valid, Bool.and_eq_true, List.all_eq_true, decide_eq_true_eq, Layout.pairwiseDisjoint_iff,
    Layout.disjoint_iff]

/-- Of windows that share no address, the first that holds an address is any that holds it. -/
theorem Layout.find_inWindow (l : Layout) (a : Nat) (w : Window) (h : l.inWindow w a = true) :
    ∀ ws : List Window, w ∈ ws → l.pairwiseDisjoint ws = true → ws.find? (fun v => l.inWindow v a) = some w := by
  intro ws
  induction ws with
  | nil => intro hw; exact absurd hw List.not_mem_nil
  | cons v t ih =>
    intro hw hd
    rw [Layout.pairwiseDisjoint_iff, List.pairwise_cons] at hd
    by_cases hv : l.inWindow v a = true
    · rw [List.find?_cons_of_pos (p := fun v => l.inWindow v a) hv]
      rcases List.mem_cons.1 hw with rfl | hw
      · rfl
      · have d := (Layout.disjoint_iff l v w).1 (hd.1 w hw)
        rw [Layout.inWindow_iff] at h hv
        omega
    · rw [List.find?_cons_of_neg (p := fun v => l.inWindow v a) hv]
      rcases List.mem_cons.1 hw with rfl | hw
      · exact absurd h hv
      · exact ih hw ((Layout.pairwiseDisjoint_iff l t).2 hd.2)

/-- In a valid layout an address belongs to the one window that holds it (R16). -/
theorem Layout.windowOf_eq {l : Layout} (hl : l.valid = true) {w : Window} (hw : w ∈ nineWindows) {a : Nat}
    (h : l.inWindow w a = true) : l.windowOf a = w := by
  rw [Layout.valid, Bool.and_eq_true] at hl
  rw [Layout.windowOf, l.find_inWindow a w h nineWindows hw hl.2, Option.getD_some]

/-- An address in none of the nine windows is PASS (R16). -/
theorem Layout.windowOf_pass {l : Layout} {a : Nat} (h : ∀ w ∈ nineWindows, l.inWindow w a = false) :
    l.windowOf a = .pass := by
  rw [Layout.windowOf, List.find?_eq_none.2 (fun w hw => by rw [h w hw]; exact Bool.false_ne_true), Option.getD_none]

/-- The window of an address in a layout holds it, or it is PASS (R16). -/
theorem Layout.windowOf_inWindow (l : Layout) (a : Nat) :
    l.windowOf a = .pass ∨ (l.windowOf a ∈ nineWindows ∧ l.inWindow (l.windowOf a) a = true) := by
  rcases h : nineWindows.find? (fun w => l.inWindow w a) with _ | w
  · exact .inl (by rw [Layout.windowOf, h, Option.getD_none])
  · rw [show l.windowOf a = w by rw [Layout.windowOf, h, Option.getD_some]]
    exact .inr ⟨List.mem_of_find?_eq_some h, by simpa using List.find?_some h⟩

/-- The first test of R150, read as its conditions. -/
theorem CommitRecord.uniformitySound_iff (r : CommitRecord) :
    r.uniformitySound = true ↔ (1 ≤ r.cols ∧ r.cols ≤ 128) ∧ (1 ≤ r.rows ∧ r.rows ≤ 72) ∧ (r.width = 8 ∨ r.width = 6) ∧
      r.shift ≤ 3 ∧ r.uniLength = presentedLengthOf (3 * (r.cols * r.rows)) r.width := by
  simp only [CommitRecord.uniformitySound, Bool.and_eq_true, decide_eq_true_eq, and_assoc]

/-- The results of a frame are its zones' in slot order, and the largest adjustment is their greatest (R69, R76). -/
theorem solveFrame_eq {f : Frame} {n : Snapshot} (h : f.snapshot = some n) :
    solveFrame f = (f.slots.map (fun v => (solveZone n v).1), (f.slots.map (fun v => (solveZone n v).2)).foldl max 0) := by
  simp only [solveFrame, h, List.map_map, Function.comp_def]

/-- The guarded sector is the first of the selected profile slot (R173). -/
theorem State.guarded_iff {s : State} {l : Layout} (hl : s.layout = some l) (x : Nat) :
    s.guarded x = true ↔ ∃ r, s.region.selected = some r ∧ x = l.profiles + 65536 * r.slot := by
  rw [State.guarded, hl]
  cases s.region.selected with
  | none => simp
  | some r => simp only [decide_eq_true_eq, Option.some.injEq, exists_eq_left']; rfl

end Sys2Proof.Machine
end

