-- ==== Sys2Proof/Tests/Slice0.lean ====
section
/-! SUPPORT. Tests on small states: the worked cases of the manual, one small effect for each group of commands, the
WellFormed smoke test, and for every statement with hypotheses a witness that meets them. Expected values come from the
manual's worked cases and tables, named in each docstring, or from hand calculation by its rules. -/

namespace Sys2Proof.Tests

open Sys2Proof Sys2Proof.Machine

/-! ## Small states -/

/-- A layout by R16: every window aligned, no two overlapping. -/
def lay : Layout :=
  { panel := 0x100000, panelCheck := 0x107000, aperture := 0x110000, keys := 0x120000, park := 0x130000,
    ring := 0x140000, profiles := 0x200000, remap := 0x300000 }

/-- COMMISSIONING mode, the lane served, a session OPEN with no timeout. -/
def opened : State :=
  { State.reset with
    sysHold := false, mode := .commissioning, layout := some lay
    session := { State.reset.session with state := .opened, station := 7, timeValid := true } }

/-- The session in another state. -/
def inSession (n : SessionState) : State := { opened with session := { opened.session with state := n } }

/-- A grid of two zones by one, width 8, with plane MID set as in the case of 06 §6.9. -/
def grid2 : Grid :=
  { Grid.empty with
    geometry := some { cols := 2, rows := 1 }, codes := [0, 0, 3, -120, 0, 0], marks := [false, true, false, false, false, true]
    mid := some { gray := 512, target := 2400, slope := 36, tolLo := 24, tolHi := 24, limit := 16, rounding := .nearest }
    generation := 70, genMark := 70 }

/-- OPEN with that grid. -/
def gridded : State := { opened with grid := grid2, classMap := [none, none] }

/-- The snapshot of plane MID at scale 256. -/
def snap : Snapshot := { tEff := 2400, slope := 36, tolLo := 24, tolHi := 24, limit := 16, rounding := .nearest }

/-- A frame over both zones of plane MID, in a state. -/
def frameOf (st : FrameState) : Frame :=
  { state := st, tag := 40, plane := .mid, rect := { x0 := 0, y0 := 0, w := 2, h := 1 }, slots := [some 2310, some 2500],
    snapshot := if st = .filling then none else some snap, discard := false }

/-- OPEN with a frame in buffer 0. -/
def framed (st : FrameState) : State := { gridded with frame0 := frameOf st }

/-- The engine holds the frame, COMPUTING. -/
def computing : State := { framed .solving with engine := { state := .computing, results := [], largest := 0 } }

/-- The engine waits to publish the frame's results. -/
def waiting : State :=
  { framed .solving with
    engine := { state := .publishWait, results := [{ cls := .adjusted, adjust := 10 }, { cls := .adjusted, adjust := -11 }],
                largest := 11 } }

/-- The frame waits only for the panel read hold, which a read in progress has. -/
def held : State :=
  { waiting with
    grid := { waiting.grid with hold := true }
    upstream := some { ignored := false, command := .read, addr := 0x100000, occupied := false, treatment := .served,
                       remapSlot := none, served := 1, data := [], firstFilled := none, overlayGen := some 70, pages := [] } }

/-- The frame waits only for the grid lock. -/
def lockedOut : State := { waiting with grid := { waiting.grid with lock := some .park } }

/-- A job in progress. -/
def active (k : JobKind) (st : Stage) (ph : Phase) (todo : List Step) : Active :=
  { job := { kind := k, tag := 9, slot := 2, sector := 0 }, stage := st, todo := todo, phase := ph, data := JobData.empty }

/-- OPEN with a job in progress. -/
def working (a : Active) : State := { gridded with seq := { gridded.seq with active := some a } }

/-- An occupied period of a PANEL erase is running. -/
def occupiedState : State := working (active .commitGrid .work .occupied [.erase 0x100000, .read 0x107000 64 .loadPage])

/-- BYPASS with the lane served. -/
def bypass : State := { State.reset with sysHold := false }

/-- A commit record with every field at the end of its range. -/
def fullRecord : CommitRecord :=
  { kind := 255, closed := true, regionValid := true, timeValid := true, uniformityValid := true, parkValid := true,
    station := 255, ringGen := 4294967295, uniGen := 4294967295, uniLength := 4294967295, width := 255, shift := 255,
    cols := 255, rows := 255, poisoned := 65535, parkGen := 4294967295, parkImage := 4294967295, regionSlot := 255,
    profileId := 255, regionScale := 65535, keySet := 65535, day := 65535, seconds := 4294967295, unknown := 65535 }

/-- A state's answer to a command. -/
def after (c : Instr) (s : State) : State :=
  match exec c s with
  | .next t => t
  | .fault _ => s
  | .refused _ => s

/-- The result a record gets. -/
def resultOf (c : Instr) (s : State) : Result := (after c s).intake.lastResult

/-! ## The WellFormed smoke test: each check refuses an ill-formed term -/

theorem test_wf_refuses_misread_beyond_the_flash :
    Instr.wellFormed (.powerOn { lineMode := true, pfwStep := none, selectHeld := false, misread := [(16777216, 0)] }) = false := by
  decide

theorem test_wf_refuses_pfw_step_zero :
    Instr.wellFormed (.powerOn { lineMode := true, pfwStep := some 0, selectHeld := false, misread := [] }) = false := by
  decide

theorem test_wf_refuses_pfw_step_ten :
    Instr.wellFormed (.powerOn { lineMode := true, pfwStep := some 10, selectHeld := false, misread := [] }) = false := by
  decide

theorem test_wf_refuses_reached_beyond_the_flash : Instr.wellFormed (.powerLoss [(16777216, 0)]) = false := by decide

theorem test_wf_refuses_more_busy_bytes_than_bytes : Instr.wellFormed (.readStatus .whole 1 2) = false := by decide

theorem test_wf_refuses_a_recognised_byte : Instr.wellFormed (.unrecognisedCommand .whole 0x9F []) = false := by decide

theorem test_wf_refuses_a_record_that_frames : Instr.wellFormed (.recordFraming 0 [1, 2, 0, 0]) = false := by decide

theorem test_wf_refuses_a_known_kind : Instr.wellFormed (.recordUnknownKind 0x10 0 []) = false := by decide

theorem overlong_bodies_do_not_fit (b : List Byte) (h : 252 < b.length) : bodyFits b = false := by
  simp only [bodyFits, decide_eq_false_iff_not]
  omega

theorem test_wf_refuses_an_overlong_body : Instr.wellFormed (.geometry 0 (List.replicate 253 0)) = false :=
  overlong_bodies_do_not_fit _ (by rw [List.length_replicate]; omega)

theorem test_wf_refuses_an_overlong_unknown_body :
    Instr.wellFormed (.recordUnknownKind 0x05 0 (List.replicate 253 0)) = false := by
  show ((kindOf 0x05).isNone && bodyFits (List.replicate 253 0)) = false
  rw [overlong_bodies_do_not_fit _ (by rw [List.length_replicate]; omega), Bool.and_false]

theorem test_wf_refuses_misread_in_a_read_step : Instr.wellFormed (.readStepComplete false [(16777216, 0)]) = false := by
  decide

theorem test_wf_accepts_a_record : Instr.wellFormed (.geometry 0 [2, 1]) = true := by decide

/-! ## Worked cases -/

/-- The block of 09 §9.2: b_0 = 16, b_1 = 32, the rest 0. -/
def worked : List Byte := [16, 32] ++ List.replicate 58 0

/-- 09 §9.2, the check: A = 49, B = 80. -/
theorem test_check_worked : checkOf worked = [49, 0, 80, 0] := by decide

/-- 09 §9.2, lines 2 and 3: b_1 read as 40 and as 30. -/
theorem test_decode_repairs :
    decodeBlock (worked.set 1 40) [49, 0, 80, 0] = .repaired 1 32 ∧
    decodeBlock (worked.set 1 30) [49, 0, 80, 0] = .repaired 1 32 := by decide

/-- 09 §9.2, lines 4 and 5: A_stored read as 305, and two damaged bytes. -/
theorem test_decode_check_and_two_bytes :
    decodeBlock worked [49, 1, 80, 0] = .checkOnly ∧
    decodeBlock ((worked.set 0 17).set 1 33) [49, 0, 80, 0] = .uncorrectable := by decide

/-- 09 §9.2, lines 6, 7 and 8: poisoned (32817 and 32848 stored), poisoned and damaged, blank. -/
theorem test_decode_poison_and_blank :
    decodeBlock worked (le 2 32817 ++ le 2 32848) = .poisoned ∧
    decodeBlock (worked.set 1 40) (le 2 32817 ++ le 2 32848) = .uncorrectable ∧
    decodeBlock (List.replicate 60 0xFF) (List.replicate 4 0xFF) = .blank := by decide

/-- 08 §8.7: presented codes at widths 8 and 6. -/
theorem test_presented_codes :
    [(13, 8, 2), (6, 8, 2), (-6, 8, 2), (-10, 8, 2), (-11, 8, 2), (-3, 8, 1), (-1, 6, 3), (127, 8, 1), (127, 6, 1),
     (127, 6, 3), (-128, 6, 1), (126, 6, 2), (-40, 6, 0)].map
      (fun (p : Int × Nat × Nat) => clampCode p.2.1 (roundCode p.2.2 p.1)) =
    [3, 2, -1, -2, -3, -1, 0, 64, 31, 16, -32, 31, -32] := by decide

/-- 08 §8.7: one group of four at width 6. -/
theorem test_width_6_group :
    [0, 1, 2].map (packedByte (sixBits 5) (sixBits (-2)) (sixBits 31) (sixBits (-32))) = [0x85, 0xFF, 0x81] := by decide

/-- 06 §6.8: zones a to e. -/
theorem test_solve_worked :
    [some 2310, some 2500, some 2050, some 2410, some 0].map (solveZone snap) =
      [({ cls := .adjusted, adjust := 10 }, 10), ({ cls := .adjusted, adjust := -11 }, 11),
       ({ cls := .partialMove, adjust := 16 }, 39), ({ cls := .inBand, adjust := 0 }, 0),
       ({ cls := .unmeasured, adjust := 0 }, 0)] := by decide

/-- 06 §6.9: the two roundings at halves and the step limit. -/
theorem test_solve_roundings :
    (solveZone { snap with tEff := 20, tolLo := 24, tolHi := 8, slope := 8 } (some 29)).1.adjust = -5 ∧
    (solveZone { snap with tEff := 20, tolLo := 24, tolHi := 8, slope := 8, rounding := .towardZero } (some 29)).1.adjust = -4 ∧
    (solveZone { snap with tEff := 65534, tolLo := 0, tolHi := 0, slope := 1, limit := 127 } (some 1)) =
      ({ cls := .partialMove, adjust := 127 }, 262132) := by decide

/-- 06 §6.8: −120 − 11 saturates. -/
theorem test_publish_saturates : publishZone (-120) { cls := .adjusted, adjust := -11 } = (-128, .saturated) := by decide

/-- R61's table. -/
theorem test_effective_targets :
    [(2400, 256), (2400, 230), (3, 200), (1, 128), (65534, 256)].map (fun (p : Nat × Nat) => effectiveTarget p.1 p.2) =
      [2400, 2156, 2, 1, 65534] := by decide

/-! ## One small effect a command -/

theorem test_powerOn_bypass :
    (after (.powerOn { lineMode := true, pfwStep := none, selectHeld := false, misread := [] }) State.reset).mode = .bypass := by
  decide

theorem test_powerLoss_loses_the_session : (after (.powerLoss []) opened).session.state = .dormant := by decide

theorem test_laneReset_frees_a_filling_frame : (after (.laneReset false) (framed .filling)).frame0.state = .free := by decide

theorem test_laneReset_keeps_a_queued_frame : (after (.laneReset false) (framed .queued)).frame0.state = .queued := by decide

theorem test_pfw_warning_and_back :
    (after .pfwAssert opened).attn = true ∧ (after .pfwDeassert (after .pfwAssert opened)).attn = false := by decide

theorem test_tick_wraps_the_day :
    (after .lineClockTick { opened with session := { opened.session with day := 65535, seconds := 86399 } }).session.day = 0 := by
  decide

theorem test_read_serves_overlay_magic : (after (.read .whole 0x100000 4) gridded).served = [0x5A, 0xC3, 1, 3] := by decide

/-- At offset 32 stand the codes, a marked zone-plane as 0 (R104, R105). -/
theorem test_fastRead_serves_codes : (after (.fastRead .whole 0x100020 4) gridded).served = [0, 0, 3, 0x88] := by decide

theorem test_read_wraps_the_address_space :
    (after (.read .whole 0xFFFFFF 2) { bypass with flash := { bypass.flash with cells := [(0, 7)] } }).served = [0xFF, 7] := by
  decide

theorem test_pageProgram_wraps_in_its_page :
    (after (.pageProgram .whole 0x0000FF [0x12, 0x34]) { opened with flash := { cells := [], latch := true, op := none } }).flash.cells =
      [(0, 0x34), (255, 0x12)] := by decide

theorem test_sectorErase_of_panel_is_refused :
    (after (.sectorErase .whole 0x100000) { opened with flash := { cells := [(0x100000, 1)], latch := true, op := none } }).flash.cells =
      [(0x100000, 1)] := by decide

theorem test_blockErase_judges_its_lowest_withheld_sector :
    ((after (.blockErase .whole 0x107FFF) opened).conds.records.map (fun r => r.address)) = [some 0x100000] := by decide

theorem test_chipErase_refused_outside_bypass :
    ((after (.chipErase .whole) opened).conds.records.map (fun r => (r.cls, r.command))) = [(.laneRefused, some 0xC7)] := by
  decide

theorem test_unrecognised_carries_its_byte :
    ((after (.unrecognisedCommand .whole 0xAB [0, 0]) opened).conds.records.map (fun r => (r.command, r.address))) =
      [(some 0xAB, none)] := by decide

theorem test_aperture_program_opens_a_session :
    (after (.pageProgram .whole 0x110000 ([0x01, 5, 11, 0] ++ [7, 54, 1, 8, 15, 0, 3, 0, 0, 3, 0])) (inSession .dormant)).session.seconds =
      29700 := by decide

theorem test_geometry_counts_codes : (after (.geometry 1 [3, 4]) opened).grid.codes.length = 36 := by decide

theorem test_geometry_of_73_rows : resultOf (.geometry 1 [1, 73]) opened = .range := by decide

theorem test_format_takes_shift_4_as_3 :
    resultOf (.format 1 [6, 4]) opened = .truncated ∧ (after (.format 1 [6, 4]) opened).grid.shift = 3 := by decide

theorem test_plane_refuses_target_65535 :
    resultOf (.plane 1 ([0] ++ le 2 0 ++ le 2 65535 ++ le 2 1 ++ le 2 0 ++ le 2 0 ++ [1, 0])) opened = .range := by decide

theorem test_frameOpen_of_an_unset_plane : resultOf (.frameOpen 1 [20, 0, 0, 0, 1, 1]) gridded = .notReady := by decide

theorem test_zones_beyond_the_rectangle :
    resultOf (.zones 1 ([40, 0] ++ le 2 1 ++ le 2 2 ++ le 2 5 ++ le 2 6)) (framed .filling) = .truncated := by decide

theorem test_frameClose_queues : (after (.frameClose 1 [40]) (framed .filling)).frame0 = { frameOf .queued with state := .queued } := by
  decide

theorem test_computingEnd_publishes : (after .computingEnd computing).grid.codes = [0, 0, 13, -128, 0, 0] := by decide

theorem test_publish_waits_for_the_hold :
    (after .publish { waiting with grid := { waiting.grid with hold := true } }).engine.state = .publishWait := by decide

/-- R45, R78: the frame that waits for the hold publishes as the read that has it ends. -/
theorem test_read_end_publishes :
    (after (.read .closes 0x100000 0) held).engine.state = .idle ∧
    (after (.read .closes 0x100000 0) held).grid.codes = [0, 0, 13, -128, 0, 0] := by decide

theorem test_rollback_of_nothing : resultOf (.rollback 1 []) gridded = .historyEmpty := by decide

theorem test_commit_of_an_empty_grid : resultOf (.commit 1 []) opened = .notReady := by decide

/-- 03 §3.5: the job of an accepted COMMIT is in progress with none waiting, its result QUEUED. -/
theorem test_commit_starts_at_once :
    resultOf (.commit 0x31 []) gridded = .queued ∧
    ((after (.commit 0x31 []) gridded).seq.active.map (fun a => (a.job.kind, a.job.tag))) = some (.commitGrid, 0x31) ∧
    (after (.commit 0x31 []) gridded).seq.waiting = [] := by decide +kernel

theorem test_keyStage_too_long : resultOf (.keyStage 1 ([0, 1] ++ le 2 449 ++ [0])) opened = .range := by decide

theorem test_keyMore_without_a_key : resultOf (.keyMore 1 [0]) opened = .stageState := by decide

theorem test_closeOut_names_the_first_failure : (after (.closeOut 1 []) gridded).intake.closeOutIndex = 3 := by decide

theorem test_retire_of_nothing : resultOf (.retire 1 []) opened = .queueEmpty := by decide

theorem test_mask_of_an_unmaskable_class : resultOf (.mask 1 [0x02, 0]) opened = .truncated := by decide

theorem test_jobStart_takes_the_lock :
    (after .jobStart { gridded with seq := { gridded.seq with waiting := [plainJob .park 3] } }).grid.lock = some .park := by
  decide

/-! ## Witnesses: concrete states and operands that meet the hypotheses of each statement -/

/-- A state with one command waiting. -/
def queued (c : Instr) (s : State) : State := { s with pending := [c] }

/-- The cells that hold a run of bytes from an address on. -/
def cellsAt (base : Nat) (bytes : List Byte) : List Host.Cell :=
  (bytes.zipIdx.map (fun p => (base + p.2, p.1))).filter (fun c => decide (c.2 ≠ 0xFF))

/-- The flash with a run of bytes in it. -/
def flashWith (base : Nat) (bytes : List Byte) : Flash := { cells := cellsAt base bytes, latch := true, op := none }

/-- A byte of the cells that hold a run of bytes. -/
theorem get_cellsAt (x : Nat) : ∀ (bytes : List Byte) (base k : Nat),
    Memory.get (((bytes.zipIdx k).map (fun p => (base + p.2, p.1))).filter (fun c => decide (c.2 ≠ 0xFF))) x =
      if base + k ≤ x then bytes.getD (x - (base + k)) 0xFF else 0xFF := by
  intro bytes
  induction bytes with
  | nil => intro base k; simp [Memory.get, erasedByte]
  | cons b t ih =>
    intro base k
    simp only [List.zipIdx_cons, List.map_cons, List.filter_cons]
    have ih := ih base (k + 1)
    by_cases hb : b = 0xFF
    · subst hb
      simp only [ne_eq, not_true_eq_false, decide_false, Bool.false_eq_true, if_false]
      rw [ih]
      by_cases h : base + (k + 1) ≤ x
      · rw [if_pos h, if_pos (by omega), show x - (base + k) = (x - (base + (k + 1))) + 1 by omega, List.getD_cons_succ]
      · by_cases h2 : base + k ≤ x
        · rw [if_neg h, if_pos h2, show x - (base + k) = 0 by omega, List.getD_cons_zero]
        · rw [if_neg h, if_neg h2]
    · simp only [ne_eq, hb, not_false_eq_true, decide_true, if_true, Memory.get, erasedByte]
      by_cases h1 : x < base + k
      · rw [if_pos h1, if_neg (by omega)]
      · by_cases h2 : x = base + k
        · rw [if_neg h1, if_pos h2, if_pos (by omega), show x - (base + k) = 0 by omega, List.getD_cons_zero]
        · rw [if_neg h1, if_neg h2, ih, if_pos (by omega), if_pos (by omega),
            show x - (base + k) = (x - (base + (k + 1))) + 1 by omega, List.getD_cons_succ]

/-- A part of a run of bytes read back from its cells. -/
theorem read_cellsAt (base : Nat) (bytes : List Byte) (off n : Nat) (h : base + off + n ≤ flashSize) (hn : off + n ≤ bytes.length) :
    Memory.read (cellsAt base bytes) (base + off) n = slice bytes off n := by
  unfold Memory.read slice
  apply List.ext_getElem
  · simp; omega
  · intro i h1 h2
    rw [List.length_map, List.length_range] at h1
    rw [List.getElem_map, List.getElem_range, Nat.mod_eq_of_lt (by omega), cellsAt, get_cellsAt, if_pos (by omega)]
    rw [List.getElem_take, List.getElem_drop, show base + off + i - (base + 0) = off + i by omega,
      List.getD_eq_getElem _ _ (by omega)]
theorem witness_StepRunsTheFrontCommand :
    (queued .publish opened).pending = .publish :: [] ∧ opened.pending = [] := ⟨rfl, rfl⟩

theorem witness_LinesFollowTheState : ∃ t, exec .publish waiting = .next t := ⟨_, rfl⟩

theorem witness_StepsKeepTheMemoryForm :
    let s := queued (.sectorErase .whole 0) { opened with flash := flashWith 5 [1, 2] }
    s.flashSound ∧ ∃ t, step s = .next t := by
  refine ⟨?_, _, rfl⟩
  show Memory.wf _ = true
  decide

/-- A PARK job holds the lock while a served read holds the panel. -/
def lockedAndHeld : State :=
  let s := working (active .park .work .waiting [.erase 0x130000])
  { s with
    grid := { s.grid with lock := some .park, hold := true }
    upstream := some { ignored := false, command := .read, addr := 0x100000, occupied := false, treatment := .served,
                       remapSlot := none, served := 1, data := [], firstFilled := none, overlayGen := some 70, pages := [] } }

theorem witness_StepsKeepTheLockAndTheHold :
    let s := queued (.read .closes 0x100000 1) lockedAndHeld
    s.lockSound ∧ ∃ t, step s = .next t := by
  refine ⟨⟨by decide, by decide⟩, _, rfl⟩

/-- Two records wait. -/
def reported : State :=
  (opened.raise { cls := .laneRefused, address := some 0x100000 }).raise { cls := .storeUncorrected, address := some 0x100000 }

theorem witness_StepsKeepTheConditionQueueLaw :
    (queued .pfwAssert reported).condsSound ∧ reported.conds.records.length = 2 ∧
      ∃ t, step (queued .pfwAssert reported) = .next t := by
  refine ⟨?_, by decide, _, rfl⟩
  unfold State.condsSound
  decide

theorem witness_StepsKeepTheTablesBounded :
    (queued (.read .whole 0 1) gridded).tablesSound ∧ ∃ t, step (queued (.read .whole 0 1) gridded) = .next t := by
  refine ⟨?_, _, rfl⟩
  unfold State.tablesSound
  decide

theorem grid2_sound : grid2.sound := by
  refine ⟨?_, by decide, by decide, ?_, by decide, by decide, by decide, by decide⟩
  · show 1 ≤ 2 ∧ 2 ≤ 128 ∧ 1 ≤ 1 ∧ 1 ≤ 72
    decide
  · unfold codeInRange
    decide

theorem waiting_gridSound : waiting.gridSound := by
  refine ⟨grid2_sound, .inr (by decide), .inl rfl, ⟨by decide, by decide, by decide, ?_⟩, by decide⟩
  intro e h
  exact absurd h List.not_mem_nil

theorem witness_StepsKeepTheGridSound : (queued .publish waiting).gridSound ∧ ∃ t, step (queued .publish waiting) = .next t :=
  ⟨waiting_gridSound, _, rfl⟩

theorem held_engineSound : held.engineSound := by
  unfold State.engineSound
  decide

theorem lockedOut_engineSound : lockedOut.engineSound := by
  unfold State.engineSound
  decide

theorem computing_engineSound : computing.engineSound := by
  unfold State.engineSound
  decide

theorem computing_gridSound : computing.gridSound := waiting_gridSound

theorem witness_StepsKeepTheEngineAndItsFrame :
    (queued (.read .closes 0x100000 1) held).engineSound ∧ ∃ t, step (queued (.read .closes 0x100000 1) held) = .next t :=
  ⟨held_engineSound, _, rfl⟩

/-- NORMAL mode with a SCAN in progress. -/
def normal : State :=
  { State.reset with sysHold := false, mode := .normal, layout := some lay,
                     seq := { State.reset.seq with active := some (active .scan .work .waiting [.read 0x120000 512 (.scanSlot 0)]) } }

theorem witness_StepsKeepModesApart :
    (queued .sequencerStepBegin normal).modeSound ∧ ∃ t, step (queued .sequencerStepBegin normal) = .next t := by
  refine ⟨?_, _, rfl⟩
  unfold State.modeSound
  decide

/-- Key slot 2 is PENDING for a KEY_STORE that waits; slot 3 is PRESENT with another class. -/
def storing : State :=
  { opened with
    keys := (opened.keys.set 2 { KeyEntry.empty with state := .pending, cls := 5 }).set 3
      { KeyEntry.empty with state := .present, cls := 4, length := 16 }
    staging := { Staging.idle with state := .held, slot := 2, cls := 5, total := 16, filled := 16 }
    seq := { opened.seq with waiting := [{ kind := .keyStore, tag := 1, slot := 2, sector := 0 }] } }

theorem storing_holds (i : Nat) (hi : i < 16) :
    (∀ c, 1 ≤ c → (storing.keyEntry i).holds c = true → (i = 2 ∧ c = 5) ∨ (i = 3 ∧ c = 4)) := by
  intro c hc h
  by_cases h2 : i = 2
  · subst h2
    simp only [KeyEntry.holds, Bool.and_eq_true, decide_eq_true_eq] at h
    exact .inl ⟨rfl, h.2.symm⟩
  · by_cases h3 : i = 3
    · subst h3
      simp only [KeyEntry.holds, Bool.and_eq_true, decide_eq_true_eq] at h
      exact .inr ⟨rfl, h.2.symm⟩
    · have e : ∀ j, j < 16 → j ≠ 2 → j ≠ 3 → storing.keyEntry j = KeyEntry.empty := by decide
      rw [e i hi h2 h3] at h
      simp [KeyEntry.holds, KeyEntry.empty] at h

theorem witness_StepsKeepTheLawOfKeyClasses :
    (queued .jobStart storing).keysSound ∧ ∃ t, step (queued .jobStart storing) = .next t := by
  refine ⟨⟨rfl, ?_, by decide, ?_, by decide, ?_⟩, _, rfl⟩
  · intro i j c hi hj hij hc h
    by_contra h'
    have a := storing_holds i hi c hc h
    have b := storing_holds j hj c hc (Bool.eq_true_of_not_eq_false h')
    omega
  · intro k hk
    have : k = { kind := .keyStore, tag := 1, slot := 2, sector := 0 } := by
      simpa [State.keyJobs, queued, storing, opened, State.reset] using hk
    subst this
    exact ⟨by decide, by decide, fun _ => by decide⟩
  · intro a h
    exact absurd h (by simp [queued, storing, opened, State.reset])

/-- The block of a commit record at the ring's second slot, just programmed, is being verified. -/
def record2 : CommitRecord := { CommitRecord.base with kind := 1, ringGen := 2, uniformityValid := true, uniGen := 70 }

/-- The job that verifies it. -/
def appendJob : Active :=
  let w := embeddedWrite 0x140000 false 0x140040 (embedBlock record2.data)
  let a := active .commitGrid .append .reading [.read 0x140040 64 (.verify w)]
  { a with data := { a.data with record := some record2, target := 1 } }

/-- That append, after a PARK record in slot 0. -/
def appending : State :=
  { working appendJob with
    grid := { grid2 with lock := some .commitGrid }
    flash := flashWith 0x140040 (embedBlock record2.data)
    latest := some { slot := 0, record := { CommitRecord.base with kind := 2, ringGen := 1 } } }

theorem witness_CommitRecordsCarryOn :
    appending.recordSound ∧ powers (.readStepComplete false []) = false ∧ (∃ t, exec (.readStepComplete false []) appending = .next t) ∧
      ∃ x, appending.latest = some x := by
  refine ⟨?_, rfl, ⟨_, rfl⟩, _, rfl⟩
  intro a r x ha hr hx
  have e : a = appendJob := Option.some.inj (ha.symm : some a = some appendJob)
  subst e
  have f : r = record2 := Option.some.inj (hr.symm : some r = some record2)
  subst f
  obtain rfl := Option.some.inj (hx.symm : some x = some { slot := 0, record := { CommitRecord.base with kind := 2, ringGen := 1 } })
  unfold CommitRecord.carriesOn
  decide

/-- OPEN with a byte in PANEL and the flash's latch set. -/
def panelled : State := { opened with flash := flashWith 0x100000 [1] }

theorem witness_GuardedAreasStand :
    panelled.flashSound ∧ panelled.lanesSound ∧ (∃ t, exec (.blockErase .whole 0x100000) panelled = .next t) ∧
      writesDownstream (.blockErase .whole 0x100000) = false ∧ panelled.guards 0x100000 = true := by
  refine ⟨?_, ⟨?_, ?_⟩, ⟨_, rfl⟩, rfl, by decide⟩
  · show Memory.wf _ = true
    decide
  · intro l h
    obtain rfl := Option.some.inj (h.symm : some l = some lay)
    decide
  · intro t h
    exact nomatch (h : none = some t)

theorem witness_CheckBlocksDecodeAndRepair :
    (0 < 65536 ∧ 0 % checkModulus ≠ checkA worked ∧ 65535 < 65536 ∧ 65535 % checkModulus ≠ checkB worked) ∧
    (worked.length = 60 ∧ 59 < worked.length ∧ worked[59]? ≠ some 1) ∧
    (let d : List Byte := List.replicate 64 9; d.length = 64 ∧ 0 < d.length ∧ d[0]? ≠ some 255) := by decide

theorem witness_CommitRecordsReadBack :
    let r := fullRecord
    r.kind < 256 ∧ r.station < 256 ∧ r.ringGen < 2 ^ 32 ∧ r.uniGen < 2 ^ 32 ∧ r.uniLength < 2 ^ 32 ∧ r.width < 256 ∧
    r.shift < 256 ∧ r.cols < 256 ∧ r.rows < 256 ∧ r.poisoned < 65536 ∧ r.parkGen < 2 ^ 32 ∧ r.parkImage < 2 ^ 32 ∧
    r.regionSlot < 256 ∧ r.profileId < 256 ∧ r.regionScale < 65536 ∧ r.keySet < 65536 ∧ r.day < 65536 ∧
    r.seconds < 2 ^ 32 ∧ r.unknown < 65536 := by decide

theorem test_full_record_reads_back : ringRecord (embedBlock fullRecord.data) = some fullRecord := by decide

/-- The largest key entry. -/
def lastKey : KeyEntry := { KeyEntry.empty with cls := 15, length := 448, station := 255, day := 65535, seconds := 4294967295 }

theorem witness_StoredKeysReadBack :
    15 < 16 ∧ 1 ≤ lastKey.cls ∧ lastKey.cls ≤ 15 ∧ 16 ≤ lastKey.length ∧ lastKey.length ≤ 448 ∧ lastKey.station < 256 ∧
    lastKey.day < 65536 ∧ lastKey.seconds < 2 ^ 32 ∧ (List.replicate 448 (0 : Byte)).length = 448 := by
  refine ⟨by decide, by decide, by decide, by decide, by decide, by decide, by decide, by decide, List.length_replicate⟩

/-- The record that parked grid2. -/
def parkRecord : CommitRecord := { CommitRecord.base with parkValid := true, ringGen := 5, parkGen := 70, parkImage := 5 }

/-- The image of grid2 read back. -/
theorem park_reads_back :
    Memory.read (cellsAt 0x130000 (grid2.parkImage 5 256)) 0x130000 (grid2.parkImage parkRecord.parkImage parkRecord.scale).length =
      grid2.parkImage parkRecord.parkImage parkRecord.scale := by
  show Memory.read (cellsAt 0x130000 (grid2.parkImage 5 256)) (0x130000 + 0) (grid2.parkImage 5 256).length = _
  have h : (grid2.parkImage 5 256).length = 256 := by decide +kernel
  rw [read_cellsAt _ _ _ _ (by rw [h]; decide) (by omega)]
  exact List.take_length

theorem witness_ParkedGridsResume :
    let m := cellsAt 0x130000 (grid2.parkImage 5 256)
    grid2.sound ∧ grid2.geometry = some { cols := 2, rows := 1 } ∧
    (∀ k, k < grid2.codes.length → grid2.marks.getD k false = true → grid2.codes.getD k 0 = 0) ∧
    (∀ p x, grid2.planeRecord p = some x →
      planeFields x.gray x.target x.slope x.tolLo x.tolHi x.limit (match x.rounding with | .nearest => 0 | .towardZero => 1)
        = some x) ∧
    parkRecord.parkGen = grid2.generation ∧ parkRecord.parkImage < 2 ^ 32 ∧ parkRecord.scale < 65536 ∧
    Memory.read m 0x130000 (grid2.parkImage parkRecord.parkImage parkRecord.scale).length =
      grid2.parkImage parkRecord.parkImage parkRecord.scale := by
  refine ⟨grid2_sound, rfl, by decide, ?_, rfl, by decide, by decide, park_reads_back⟩
  intro p x h
  cases p
  · exact nomatch (h : none = some x)
  · obtain rfl := Option.some.inj (h.symm : some x = grid2.mid)
    decide
  · exact nomatch (h : none = some x)

/-- The record of grid2 as PANEL holds it. -/
def panelRecord : CommitRecord :=
  { CommitRecord.base with
    uniformityValid := true, ringGen := 6, uniGen := 70, uniLength := 38, width := 8, shift := 0, cols := 2, rows := 1 }

/-- The first PANEL block of grid2. -/
def panelBlock : List Byte := (List.range 64).map grid2.overlayByte

theorem witness_resume_takes_the_park_image :
    let m := cellsAt 0x130000 (grid2.parkImage 5 256)
    let block := fun k => Memory.read m (lay.park + 64 * k) 64
    let h := embeddedData (block 0)
    parkRecord.parkValid = true ∧ parkRecord.uniGen ≤ parkRecord.parkGen ∧ parkRecord.regionValid = false ∧
    (decodeEmbedded (block 0)).trusted = true ∧ (decodeEmbedded (block 1)).trusted = true ∧
    fieldAt h 0 4 = parkRecord.parkImage ∧ fieldAt h 4 4 = parkRecord.parkGen ∧ byteAt h 8 = 2 ∧ byteAt h 9 = 1 ∧
    byteAt h 10 = 8 ∧ byteAt h 11 ≤ 3 ∧ fieldAt h 12 2 = 256 := by decide +kernel

theorem witness_resume_takes_panel :
    let m := Memory.setAll (cellsAt 0x100000 panelBlock) (cellsAt 0x107000 (checkOf panelBlock))
    let d := decodeBlock (Memory.read m lay.panel 64) (Memory.read m lay.panelCheck 4)
    let h := repairData (Memory.read m lay.panel 64) d
    panelRecord.parkValid = false ∧ panelRecord.uniLength = 32 + 3 * (2 * 1) ∧ d ≠ .blank ∧ d ≠ .uncorrectable ∧
    byteAt h 0 = 0x5A ∧ byteAt h 1 = 0xC3 ∧ byteAt h 2 = 1 ∧ byteAt h 3 = 3 ∧ byteAt h 4 = 2 ∧ byteAt h 5 = 1 ∧
    byteAt h 6 = 8 ∧ byteAt h 7 = 0 ∧ fieldAt h 8 4 = panelRecord.uniGen ∧ fieldAt h 18 4 = panelRecord.uniLength ∧
    CommitRecord.base.parkValid = false ∧ CommitRecord.base.uniformityValid = false := by decide +kernel

/-- LINE_MODE asserted, nothing out of the ordinary. -/
def plainPower : PowerOnInput := { lineMode := true, pfwStep := none, selectHeld := false, misread := [] }

theorem witness_PowerOnWithAnInvalidDescriptor :
    descriptorLayout (Memory.read (Memory.setAll State.reset.flash.cells plainPower.misread) descriptorBase 64) = none ∧
    ({ plainPower with pfwStep := some 2 } : PowerOnInput).pfwStep = some 2 := by decide

/-- A flash with a valid descriptor. -/
def described : State :=
  { State.reset with
    flash := flashWith 0xFFF000 (embedBlock ([0xE6, 0x20, 1, 24] ++ le 3 0x100000 ++ le 3 0x107000 ++ le 3 0x110000
      ++ le 3 0x120000 ++ le 3 0x130000 ++ le 3 0x140000 ++ le 3 0x200000 ++ le 3 0x300000)) }

theorem witness_PowerOnWithAValidDescriptor :
    descriptorLayout (Memory.read (Memory.setAll described.flash.cells plainPower.misread) descriptorBase 64) = some lay := by
  decide +kernel

/-- Descriptor blocks (R16): windows that touch both ends of the flash and each other; one window too high, one overlapping
DESCRIPTOR, one not aligned; another version; one byte corrected, and two bytes damaged. -/
theorem witness_descriptors :
    let block := fun (head : List Byte) (panel : Nat) => embedBlock (head ++ le 3 panel ++ le 3 0xFF7000 ++ le 3 0
      ++ le 3 0x10000 ++ le 3 0x12000 ++ le 3 0x1C000 ++ le 3 0xF00000 ++ le 3 0xFE0000 ++ List.replicate 32 7)
    let magic : List Byte := [0xE6, 0x20, 1, 24]
    let l : Layout := { lay with panel := 0xFF8000, panelCheck := 0xFF7000, aperture := 0, keys := 0x10000, park := 0x12000,
                                 ring := 0x1C000, profiles := 0xF00000, remap := 0xFE0000 }
    l.valid = true ∧ lay.valid = true ∧ (List.replicate 32 (7 : Byte)).length = 32 ∧
    descriptorLayout (block magic 0xFF8000) = some l ∧ descriptorLayout (block magic 0xFFA000) = none ∧
    descriptorLayout (block magic 0xFF9000) = none ∧ descriptorLayout (block magic 0x100800) = none ∧
    descriptorLayout (block [0xE6, 0x20, 2, 24] 0xFF8000) = none ∧
    descriptorLayout ((block magic 0xFF8000).set 5 9) = some l ∧
    decodeEmbedded (((block magic 0xFF8000).set 5 9).set 9 1) = .uncorrectable := by decide +kernel

/-- A record with a region in force, at the ends of its ranges. -/
def regionRecord : CommitRecord :=
  { CommitRecord.base with regionValid := true, ringGen := 9, regionSlot := 7, profileId := 254, regionScale := 128 }

theorem witness_power_on_finds_its_records :
    let ring := cellsAt (0x140000 + 64 * 127) (embedBlock regionRecord.data)
    let profile := cellsAt (0x200000 + 65536 * 7) (embedBlock [0x52, 0x47, 254, 128, 0, 1, 15])
    let key := cellsAt (0x120000 + 512 * 15) (List.replicate 64 0)
    ringRecord (Memory.read ring (lay.ring + 64 * 127) 64) = some regionRecord ∧ regionRecord.closed = false ∧
    (regionRecord.regionSlot ≤ 7 ∧ 128 ≤ regionRecord.regionScale ∧ regionRecord.regionScale ≤ 256) ∧
    (profileHeader (Memory.read profile (lay.profiles + 65536 * 7) 64)).map (fun h => (h.id, h.scale, h.classes)) =
      some (254, 128, [15]) ∧
    decodeEmbedded (Memory.read key (lay.keys + 512 * 15) 64) ≠ .blank ∧
    keyHeader 15 (decodeEmbedded (Memory.read key (lay.keys + 512 * 15) 64))
      (embeddedData (Memory.read key (lay.keys + 512 * 15) 64)) = none ∧
    decodeEmbedded (Memory.read State.reset.flash.cells (lay.keys + 512 * 0) 64) = .blank ∧
    CommitRecord.base.regionValid = false ∧ ({ plainPower with pfwStep := some 9 } : PowerOnInput).pfwStep = some 9 := by
  decide +kernel

/-- An erase of the last sector is in progress. -/
def erasing : State :=
  { opened with
    flash := { cells := [(1, 2)], latch := false,
               op := some { base := 0xFFF000, len := 4096, before := [(0xFFF000, 1), (0xFFFFFF, 2)] } } }

theorem witness_PowerLossLeavesTheFlash :
    opened.flashSound ∧ opened.flash.op = none ∧ erasing.flashSound ∧
    ∃ o, erasing.flash.op = some o ∧ o.base + o.len ≤ flashSize ∧ Memory.wf o.before = true ∧
      ∀ c ∈ o.before, o.base ≤ c.1 ∧ c.1 < o.base + o.len := by
  refine ⟨rfl, rfl, ?_, _, rfl, by decide, by decide, by decide⟩
  show Memory.wf _ = true
  decide

theorem witness_power_loss_reaches_the_last_byte :
    let reached : List Host.Cell := [(0xFFFFFF, 1), (0xFFF000, 4), (0xFFFFFF, 3), (0xFFF000, 5)]
    0xFFFFFF < flashSize ∧ reached = [(0xFFFFFF, 1), (0xFFF000, 4)] ++ (0xFFFFFF, 3) :: [(0xFFF000, 5)] ∧
    (∀ c ∈ ([(0xFFF000, 5)] : List Host.Cell), c.1 ≠ 0xFFFFFF) ∧ (∀ c ∈ reached, c.1 % flashSize ≠ 0xFFF001) := by decide

/-- A forwarded page program to a profile header is in progress. -/
def forwarding : State :=
  { opened with upstream := some { ignored := false, command := .pageProgram, addr := 0x200000, occupied := false,
                                   treatment := .forwarded, remapSlot := none, served := 0, data := [1], firstFilled := none,
                                   overlayGen := none, pages := [] } }

theorem witness_LaneResetDropsAndKeeps :
    opened.sysRst = false ∧ opened.sysHold = false ∧ opened.occupied = false ∧
    (∀ x, opened.upstream = some x → x.ignored = true ∨ x.treatment ≠ .forwarded) ∧
    (forwarding.sysRst = false ∧ forwarding.sysHold = false ∧
      ∃ x, forwarding.upstream = some x ∧ x.ignored = false ∧ x.treatment = .forwarded) ∧
    (held.sysRst = false ∧ held.sysHold = false ∧ held.grid.hold = true) ∧
    ({ opened with sysRst := true } : State).sysRst = true ∧ State.reset.sysRst = false ∧ State.reset.sysHold = true :=
  ⟨rfl, rfl, by decide, (fun x h => nomatch (h : none = some x)), ⟨rfl, rfl, _, rfl, rfl, rfl⟩, ⟨rfl, rfl, rfl⟩, rfl, rfl, rfl⟩

/-- PFW is asserted and the job holds at an erase. -/
def paused : State := { working (active .park .work .ready [.erase 0x130000]) with pfw := true }

theorem witness_PowerFailWarningPausesAndResumes :
    opened.pfw = false ∧ (paused.pfw = true ∧ paused.laneBusy = false ∧
      ∃ a, paused.seq.active = some a ∧ a.phase = .ready ∧ a.todo = .erase 0x130000 :: [] ∧ (Step.erase 0x130000).writes = true) ∧
    (∃ a, (working (active .park .work .ready [.program 0x130000 [1]])).seq.active = some a ∧
      a.todo = .program 0x130000 [1] :: []) ∧
    (∀ a st rest, ({ opened with pfw := true } : State).seq.active = some a → a.todo = st :: rest → a.phase = .ready →
      ({ opened with pfw := true } : State).laneBusy = false → st.writes = false) ∧
    (∀ r ∈ opened.conds.records, r.cls ≠ .warning) ∧
    (∃ w, (opened.pfwRise).conds.records = [] ++ w :: [] ∧ w.cls = .warning) ∧
    ∃ x w, (reported.pfwRise).conds.records = reported.conds.records ++ w :: [] ∧ w.cls = .warning ∧
      (∀ r ∈ reported.conds.records, r.cls ≠ .warning) ∧
      reported.conds.records ++ [] = [reported.newRecord { cls := .laneRefused, address := some 0x100000 } false 1] ++ [x] := by
  refine ⟨rfl, ⟨rfl, rfl, _, rfl, rfl, rfl, rfl⟩, ⟨_, rfl, rfl⟩, (fun a _ _ h => nomatch (h : none = some a)), by decide,
    ⟨_, rfl, rfl⟩, _, _, rfl, rfl, by decide, rfl⟩

/-- OPEN with an idle timer in a state. -/
def timed (t : IdleTimer) : State := { gridded with session := { gridded.session with timer := t } }

theorem witness_TheClockAndTheTimersAct :
    (timed (.running 30)).session.timer = .running 30 ∧ (timed .stopped).session.timer = .stopped ∧
    (timed .held).session.timer = .held ∧ (timed (.running 30)).unsaved = true ∧
    (timed (.running 30)).seq.waiting.length < 4 ∧ (timed (.running 30)).seq.active = none ∧
    (timed (.running 30)).seq.waiting = [] ∧ (timed (.running 30)).layout = some lay ∧
    occupiedState.seq.active ≠ none ∧ ({ opened with session := { opened.session with timer := .running 1 } } : State).unsaved = false ∧
    (
      let s := timed (.running 30)
      4 ≤ ({ s with seq := { s.seq with waiting := List.replicate 4 (plainJob .scan 0) } } : State).seq.waiting.length) := by
  decide

/-- Profile slot 0 is selected, so its header sector is guarded. -/
def selected : State :=
  { opened with region := { opened.region with selected := some { slot := 0, id := 17, scale := 230 } } }

theorem witness_ReadsServeEachByteFromItsSource :
    gridded.laneFree = true ∧ gridded.occupied = false ∧ Instr.read .whole 0xFFFFFF 2 ∈ [Instr.read .whole 0xFFFFFF 2] ∧
    opened.intake.outcomes.length = 9 ∧ opened.intake.outcomes[8]? = some OutcomeEntry.unused ∧ opened.report = none ∧
    (after .computingEnd computing).report ≠ none ∧ opened.conds.records = [] ∧
    (∃ r rest, reported.conds.records = r :: rest) ∧
    (∃ e, (after .computingEnd computing).history.stack[0]? = some e) ∧ opened.keys.length = 16 ∧
    opened.keys[15]? = some KeyEntry.empty ∧ opened.counters.length = 10 ∧ opened.watches.length = 4 ∧
    opened.counters[9]? = some CounterSet.zero ∧ opened.watches[3]? = some Watch.off ∧ opened.region.selected = none ∧
    selected.region.selected ≠ none ∧ opened.region.classes = some [] ∧
    ({ opened.region with classes := none } : Region).classes = none ∧ 9215 < 9216 := by
  refine ⟨by decide, by decide, by decide, rfl, rfl, rfl, by decide, rfl, ⟨_, _, rfl⟩, ⟨_, rfl⟩, rfl, rfl, rfl, rfl, rfl, rfl,
    rfl, by decide, rfl, rfl, by decide⟩

theorem witness_OccupiedReadsFillAndCollide : occupiedState.laneFree = true ∧ occupiedState.occupied = true := by decide

theorem witness_TheOverlayShowsThePresentedCodes :
    grid2.sound ∧ 5 < 3 * grid2.zones ∧ grid2.marks.getD 5 false = true ∧ grid2.marks.getD 0 true = false ∧
    grid2.width = 8 ∧ ({ grid2 with width := 6 } : Grid).width = 6 ∧ 5 < 6 :=
  ⟨grid2_sound, by decide, by decide, by decide, rfl, rfl, by decide⟩

theorem witness_wide_grid_sound : ({ grid2 with width := 6, shift := 3 } : Grid).sound :=
  ⟨grid2_sound.1, grid2_sound.2.1, grid2_sound.2.2.1, grid2_sound.2.2.2.1, .inr rfl, by decide, by decide, by decide⟩

/-- The sources of bytes at the boundaries of their windows, by R5, in COMMISSIONING mode and in NORMAL mode; the presented
length of `grid2` is 38. -/
theorem witness_sources :
    gridded.mode ≠ .bypass ∧ gridded.layout = some lay ∧ lay.valid = true ∧ bypass.mode = .bypass ∧
    gridded.sourceAt 0x10FFFF 0 = .flash 0x10FFFF ∧ gridded.sourceAt 0x10FFFF 1 = .page 0 0 ∧
    gridded.sourceAt 0x11FFFF 0 = .page 255 255 ∧ gridded.sourceAt 0x120000 0 = .flash 0x120000 ∧
    gridded.sourceAt 0x100000 37 = .overlay 37 ∧ gridded.sourceAt 0x100000 38 = .flash 0x100026 ∧
    opened.sourceAt 0x100000 0 = .flash 0x100000 ∧ normal.sourceAt 0x100000 0 = .flash 0x100000 ∧
    normal.sourceAt 0x110000 0 = .flash 0x110000 ∧ opened.sourceAt 0x30FFFF 0 = .flash 0x30FFFF ∧
    (∃ r, selected.region.selected = some r ∧ selected.sourceAt 0x30FFFF 0 = .flash (0x200000 + 65536 * r.slot + 0xFFFF)) ∧
    selected.sourceAt 0x30FFFF 1 = .flash 0x310000 ∧ gridded.sourceAt 0xFFFFFF 1 = .flash 0 :=
  ⟨by decide, rfl, by decide, rfl, by decide, by decide, by decide, by decide, by decide, by decide, by decide, by decide,
    by decide, by decide, ⟨_, rfl, by decide⟩, by decide, by decide⟩

/-- Which addresses are forwarded at the boundaries of their windows, by R5, in COMMISSIONING and NORMAL modes. -/
theorem witness_forwarding :
    opened.mode = .commissioning ∧ opened.layout = some lay ∧ lay.valid = true ∧ normal.mode = .normal ∧
    normal.layout = some lay ∧
    ([0x0FFFFF, 0x108000, 0x200000, 0x27FFFF, 0x310000, 0xFFEFFF].map opened.forwards).all id = true ∧
    ([0x100000, 0x107FFF, 0x110000, 0x11FFFF, 0x120000, 0x121FFF, 0x130000, 0x139FFF, 0x140000, 0x141FFF, 0x300000, 0x30FFFF,
      0xFFF000, 0xFFFFFF].map opened.forwards).any id = false ∧
    ([0x110000, 0x11FFFF].map normal.forwards).all id = true ∧ ([0x100000, 0x300000].map normal.forwards).any id = false ∧
    bypass.forwards 0xFFFFFF = true ∧ opened.windowOf 0x27FFFF = .profiles ∧ normal.windowOf 0x110000 = .pass := by decide

/-- The first and last addresses outside every window around PANEL, and an unselected profile. -/
theorem witness_ForwardedWritesReachTheFlash :
    opened.laneFree = true ∧ opened.occupied = false ∧ opened.forwards 0x0FFFFF = true ∧ opened.forwards 0x108000 = true ∧
    opened.windowOf 0x0FFFFF ≠ .aperture ∧ opened.forwards 0x200000 = true ∧
    (∀ k, k < 16 → opened.forwards (0x0FFFFF / 65536 * 65536 + 4096 * k) = true) ∧
    bypass.laneFree = true ∧ bypass.mode = .bypass ∧ Memory.wf [(0, 1), (16777215, 2)] = true ∧
    ([1, 2] : List Byte).length ≤ 256 ∧ 16777215 < flashSize := by decide

theorem witness_WithheldWritesAreRefused :
    opened.laneFree = true ∧ opened.occupied = false ∧ opened.windowOf 0x100000 ≠ .aperture ∧
    opened.forwards 0x100000 = false ∧ opened.forwards 0x106FFF = false ∧ selected.forwards 0x200FFF = false ∧
    selected.forwards 0x201000 = true ∧ occupiedState.laneFree = true ∧ occupiedState.occupied = true ∧
    occupiedState.windowOf 0x0FFFFF ≠ .aperture ∧ 0 < 16 ∧ selected.forwards (blockOf 0x20FFFF + 4096 * 0) = false ∧
    opened.mode ≠ .bypass := by decide

theorem witness_block_withheld_at_its_last_sector :
    let s : State := { opened with layout := some { lay with ring := 0x14E000 } }
    14 < 16 ∧ s.forwards (blockOf 0x140000 + 4096 * 14) = false ∧
      ∀ j, j < 14 → s.forwards (blockOf 0x140000 + 4096 * j) = true := by decide

theorem witness_EnablesAndDroppedTransactions :
    opened.laneFree = true ∧ State.reset.upstream = none ∧ State.reset.sysHold = true ∧
    ({ opened with sysRst := true } : State).sysRst = true ∧ recognisedBytes.contains 0xAB = false := by decide

theorem witness_StatusAndIdentificationReads :
    occupiedState.laneFree = true ∧ occupiedState.occupied = true ∧ erasing.laneFree = true ∧ erasing.occupied = false := by
  decide

theorem witness_UnrecognisedCommandsAreRefused :
    recognisedBytes.contains 0x00 = false ∧ recognisedBytes.contains 0xFF = false ∧ opened.laneFree = true ∧
    opened.mode ≠ .bypass ∧ bypass.laneFree = true ∧ bypass.mode = .bypass ∧ recognisedBytes.contains 0x9F = true ∧
    (0xD8 : Byte) ∈ ([0x03, 0x0B, 0x02, 0x20, 0xD8] : List Byte) ∧ ([1, 2] : List Byte).length < 3 := by decide

theorem witness_AperturePageProgramsAreRecords :
    opened.laneFree = true ∧ opened.windowOf 0x110000 = .aperture ∧ opened.windowOf 0x113FFF = .aperture ∧
    occupiedState.laneFree = true ∧ occupiedState.windowOf 0x110000 = .aperture ∧
    (0x113F00 : Address).toNat % 256 = 0 ∧ 4 ≤ min 256 ([2, 9, 0, 0] : List Byte).length ∧
    0 ≤ min 256 ([2, 9, 0, 0] : List Byte).length - 4 ∧ kindOf 2 = some .resetSession ∧ kindOf 0 = none ∧
    (0x113FFF : Address).toNat % 256 ≠ 0 := by decide

theorem witness_SplitTransactionsDoWhatWholeOnesDo :
    opened.settle.upstream = none ∧ opened.settle.settle = opened.settle := ⟨rfl, rfl⟩

theorem witness_UnframedAndUnknownRecords :
    opened.recordsReach = true ∧ ([1, 2, 0] : List Byte).length < 4 ∧ (255 : Byte) ≠ 0 ∧
    (let d : List Byte := [1, 2, 1, 0]; min 256 d.length - 4 < (d.getD 2 0).toNat + 256 * (d.getD 3 0).toNat) ∧
    kindOf 0x00 = none ∧ kindOf 0x60 = none := by decide

theorem witness_RecordsOutsideOpenAreRefused :
    (∀ n, (inSession n).recordsReach = true) ∧ (inSession .dormant).session.state = .dormant ∧
    Kind.geometry ≠ .sessionOpen ∧ Kind.geometry ≠ .mask ∧ Kind.geometry ≠ .retire ∧
    (inSession .lapsed).session.state = .lapsed ∧ Kind.retire ≠ .sessionOpen ∧
    (inSession .closed).session.state = .closed ∧ Kind.sessionOpen ≠ .mask ∧ Kind.sessionOpen ≠ .retire := by
  refine ⟨fun n => rfl, by decide⟩

theorem witness_ShortAndUnreachedRecordsAreJudgedFirst :
    opened.inOpen = true ∧ (List.replicate 12 (0 : Byte)).length < Kind.plane.bodyLength ∧
    (∀ n, (inSession n).recordsReach = true) ∧ (List.replicate 10 (0 : Byte)).length < Kind.sessionOpen.bodyLength ∧
    ([0] : List Byte).length < Kind.mask.bodyLength ∧ (inSession .dormant).session.state = .dormant ∧
    (inSession .lapsed).session.state = .lapsed ∧ (inSession .closed).session.state = .closed ∧
    State.reset.recordsReach = false ∧ normal.recordsReach = false ∧ lockedAndHeld.recordsReach = false := by
  refine ⟨by decide, by decide, fun n => rfl, by decide⟩

/-- The ranges of R20 over the bytes of a body. -/
def sessionRanges (b : Nat → Nat) : Prop :=
  1 ≤ b 0 ∧ b 3 ≤ 23 ∧ b 4 ≤ 59 ∧ b 5 ≤ 59 ∧ b 6 ≤ 7 ∧ b 7 ≤ 9 ∧ b 8 ≤ 1 ∧ b 9 ≤ 3 ∧ b 10 ≤ 3

/-- Bodies of SESSION_OPEN at the ends of its ranges, and one beyond. -/
theorem witness_SessionOpenSetsTheSession :
    (inSession .lapsed).recordsReach = true ∧ (inSession .lapsed).session.state ≠ .closed ∧
    sessionRanges (byteAt [1, 255, 255, 23, 59, 59, 7, 9, 1, 3, 3]) ∧
    ¬sessionRanges (byteAt [0, 0, 0, 0, 0, 0, 0, 0, 0, 0, 0]) ∧
    ¬sessionRanges (byteAt [1, 0, 0, 24, 0, 0, 0, 0, 0, 0, 0]) := by
  unfold sessionRanges
  decide

theorem witness_ResetSessionClearsTheWork :
    (framed .filling).inOpen = true ∧ (framed .filling).engine.state ≠ .publishWait ∧ lockedOut.inOpen = true ∧
    lockedOut.engineSound ∧ lockedOut.engine.state = .publishWait :=
  ⟨by decide, by decide, by decide, lockedOut_engineSound, rfl⟩

theorem witness_MaskAndRetire :
    (inSession .closed).recordsReach = true ∧ (inSession .closed).session.state ≠ .lapsed ∧ 2 ≤ ([0xFF, 0xFF] : List Byte).length ∧
    opened.conds.records = [] ∧ reported.recordsReach = true ∧ reported.session.state ≠ .lapsed ∧
    (∃ r rest, reported.conds.records = r :: rest) ∧
    (∃ a b, reported.conds.records = [a, b] ∧ a.cls = .laneRefused ∧ a.address.map sectorOf = some (sectorOf 0x100FFF) ∧
      b.cls = .storeUncorrected ∧ sectorOf 0x100000 ∈ reported.conds.known ∧ sectorOf 0x101000 ∉ reported.conds.known) ∧
    (List.replicate 15 (0 : Nat)).length = 15 :=
  ⟨rfl, by decide, by decide, rfl, rfl, by decide, ⟨_, _, rfl⟩, ⟨_, _, rfl, rfl, by decide, rfl, by decide, by decide⟩, by decide⟩

theorem witness_GeometryStartsANewGrid : opened.inOpen = true ∧ 2 ≤ ([128, 72] : List Byte).length ∧ opened.closingOut = false ∧
    opened.grid.genMark < 4294967295 ∧ opened.frame0.state = .free ∧ opened.frame1.state = .free ∧ opened.grid.lock = none := by
  decide

theorem witness_FormatAndPlaneSetTheirFields :
    gridded.inOpen = true ∧ 2 ≤ ([6, 255] : List Byte).length ∧
    (let b : List Byte := [2] ++ le 2 1023 ++ le 2 65534 ++ le 2 2047 ++ le 2 4095 ++ le 2 4095 ++ [127, 1];
      13 ≤ b.length ∧ byteAt b 0 ≤ 2 ∧ fieldAt b 1 2 ≤ 1023 ∧ 1 ≤ fieldAt b 3 2 ∧ fieldAt b 3 2 ≤ 65534 ∧
      1 ≤ fieldAt b 5 2 ∧ fieldAt b 5 2 ≤ 2047 ∧ fieldAt b 7 2 ≤ 4095 ∧ fieldAt b 9 2 ≤ 4095 ∧
      1 ≤ byteAt b 11 ∧ byteAt b 11 ≤ 127 ∧ byteAt b 12 ≤ 1) ∧
    (let b : List Byte := [3] ++ List.replicate 12 0; 13 ≤ b.length ∧ ¬byteAt b 0 ≤ 2) := by decide

theorem witness_FrameOpenTakesAFreeBuffer :
    gridded.inOpen = true ∧ gridded.closingOut = false ∧ (working (active .closeOut .append .waiting [])).closingOut = true ∧
    (let b : List Byte := [40, 1, 1, 0, 1, 1]; 6 ≤ b.length ∧ byteAt b 1 = Plane.mid.index) ∧
    2 < byteAt ([40, 3, 0, 0, 1, 1] : List Byte) 1 := by decide

theorem witness_ZonesFillTheirSlots :
    let s := framed .filling
    s.inOpen = true ∧ (s.frame false).state = .filling ∧ (s.frame false).tag = 40 ∧
    (∀ i, (s.frame i).state = .filling → (s.frame i).tag ≠ ([41, 0, 0, 0, 1, 0, 1, 0] : List Byte).getD 0 0) ∧
    (let b : List Byte := [40, 0] ++ le 2 1 ++ le 2 120 ++ List.replicate 240 1;
      8 ≤ b.length ∧ 1 ≤ fieldAt b 4 2 ∧ fieldAt b 4 2 ≤ 120 ∧ 6 + 2 * fieldAt b 4 2 ≤ b.length ∧ fieldAt b 2 2 < 2) ∧
    (let b : List Byte := [40, 0] ++ le 2 2 ++ le 2 1 ++ [1, 1]; 8 ≤ b.length ∧ 2 ≤ fieldAt b 2 2) := by decide +kernel

theorem witness_FramesCloseAndAreAbandoned :
    let s := framed .filling
    (
      let r : State := { s with frame1 := frameOf .queued }
      r.inOpen = true ∧ (r.frame false).state = .filling ∧ r.engine.state = .idle ∧ (r.frame (!false)).state = .queued) ∧
    s.inOpen = true ∧ (s.frame false).state = .filling ∧ (s.frame false).tag = ([40] : List Byte).getD 0 0 ∧
    (∀ i, ((framed .queued).frame i).state = .filling → ((framed .queued).frame i).tag ≠ ([40] : List Byte).getD 0 0) := by decide

theorem witness_RollbackUndoesThePublish :
    computing.inOpen = true ∧ computing.gridSound ∧ computing.engineSound ∧ computing.engine.state = .computing ∧
    computing.frameIn .solving = some false ∧ (computing.frame false).discard = false ∧
    computing.gridFree = true ∧ computing.grid.genMark + 1 < 4294967295 ∧ computing.closingOut = false ∧
    ∃ t, exec .computingEnd computing = .next t :=
  ⟨by decide, computing_gridSound, computing_engineSound, rfl, by decide, by decide, by decide, by decide, by decide, _, rfl⟩

theorem witness_WatchSetsOneMonitor :
    opened.inOpen = true ∧ (let b : List Byte := [3, 3, 0xFF, 0xFF, 0xFF, 0, 0, 0];
      8 ≤ b.length ∧ byteAt b 0 ≤ 3 ∧ byteAt b 1 = WatchKind.both.code) ∧
    3 < byteAt ([4, 0, 0, 0, 0, 0, 0, 0] : List Byte) 0 ∧ 3 < byteAt ([0, 4, 0, 0, 0, 0, 0, 0] : List Byte) 1 := by decide

theorem witness_CommitParkAndScanQueueTheirJobs :
    gridded.inOpen = true ∧ gridded.grid.geometry ≠ none ∧ gridded.seq.waiting.length < 4 ∧ gridded.layout = some lay ∧
    gridded.seq.active = none ∧ gridded.seq.waiting = [] := by decide

theorem witness_StagingFillsInOrder :
    opened.inOpen = true ∧ 5 ≤ ([15, 15] ++ le 2 448 ++ [1] : List Byte).length ∧ opened.staging.state = .idle ∧
    opened.classTaken 15 15 = false ∧ 1 ≤ ([9] : List Byte).length ∧
    ({ opened with staging := { Staging.idle with state := .filling, total := 16, filled := 15 } } : State).inOpen = true := by
  decide

theorem witness_KeyJobsMakeTheirSlotPending :
    opened.inOpen = true ∧ 1 ≤ ([15] : List Byte).length ∧
    (let s : State := { opened with staging := { Staging.idle with state := .complete, slot := 2, cls := 5, total := 16, filled := 16 } };
      s.inOpen = true ∧ s.classTaken 2 5 = false ∧ (s.keyEntry 2).state = .empty) := by decide

theorem witness_RegionAndCloseOutAreJudged :
    opened.inOpen = true ∧ 1 ≤ ([7] : List Byte).length ∧ opened.closingOut = false ∧ opened.seq.active = none ∧
    opened.region.selected = none := by decide

theorem witness_TheEngineTakesAndSolvesFrames :
    (framed .queued).engine.state = .idle ∧ (framed .queued).frameIn .queued = some false ∧
    computing.engine.state = .computing ∧ computing.frameIn .solving = some false ∧ (computing.frame false).discard = false ∧
    computing.grid.genMark < 4294967295 ∧ computing.gridFree = true ∧ computing.frameIn .queued = none ∧
    ({ computing with grid := { computing.grid with lock := some .park } } : State).gridFree = false ∧
    (({ computing with frame0 := { computing.frame0 with discard := true } } : State).frame false).discard = true ∧
    4294967295 ≤ ({ computing with grid := { computing.grid with genMark := 4294967295 } } : State).grid.genMark ∧
    ({ computing with frame1 := frameOf .queued } : State).frameIn .queued = some true ∧
    ({ computing with frame1 := frameOf .queued } : State).frameIn .solving = some false := by decide

/-- A frame's results in slot order and its largest adjustment (06 §6.8); none with no slot. -/
theorem witness_frame_results :
    (frameOf .solving).snapshot = some snap ∧ (frameOf .solving).slots ≠ [] ∧
    solveFrame (frameOf .solving) = ([{ cls := .adjusted, adjust := 10 }, { cls := .adjusted, adjust := -11 }], 11) ∧
    ({ frameOf .solving with slots := [] } : Frame).slots = [] ∧
    solveFrame { frameOf .solving with slots := [] } = ([], 0) := by decide

theorem witness_ZonesAreSolvedByTheRules :
    1 ≤ snap.slope ∧ snap.tEff ≤ 65534 ∧ 1 ≤ 1 ∧ 65534 ≤ 65534 ∧
    (snap.tEff - snap.tolLo ≤ 2376 ∧ 2376 ≤ snap.tEff + snap.tolHi) ∧
    ¬(snap.tEff - snap.tolLo ≤ 2425 ∧ 2425 ≤ snap.tEff + snap.tolHi) ∧ snap.rounding = .nearest ∧
    ({ snap with rounding := .towardZero } : Snapshot).rounding = .towardZero := by decide

theorem witness_PublishWritesTheFrame :
    waiting.gridSound ∧ waiting.engine.state = .publishWait ∧ waiting.frameIn .solving = some false ∧
    waiting.frameIn .queued = none ∧ waiting.gridFree = true ∧ waiting.grid.genMark < 4294967295 ∧
    waiting.engine.results.length = (waiting.frame false).rect.w * (waiting.frame false).rect.h ∧
    ({ waiting with frame1 := frameOf .queued } : State).frameIn .queued = some (!false) ∧
    (
      let s : State := { waiting with grid := { waiting.grid with genMark := 4294967295 } }
      s.engine.state = .publishWait ∧ s.frameIn .solving = some false ∧ s.gridFree = true ∧ 4294967295 ≤ s.grid.genMark) ∧
    computing.engine.state ≠ .publishWait ∧ lockedOut.gridFree = false :=
  ⟨waiting_gridSound, rfl, by decide, by decide, by decide, by decide, by decide, by decide, by decide, by decide, by decide⟩

/-- One job waits. -/
def jobWaits (k : JobKind) : State := { storing with seq := { storing.seq with waiting := [{ plainJob k 9 with slot := 2 }] } }

theorem witness_JobsStartOneAtATime :
    (∀ k, (jobWaits k).layout = some lay ∧ (jobWaits k).seq.active = none ∧
      (jobWaits k).seq.waiting = { plainJob k 9 with slot := 2 } :: []) ∧
    JobKind.scrub ≠ .closeOut ∧ (jobWaits .closeOut).latest = none ∧
    (∃ x, ({ jobWaits .closeOut with latest := some { slot := 127, record := fullRecord } } : State).latest = some x ∧
      4294967295 ≤ x.record.ringGen) ∧
    ((jobWaits .keyStore).keyEntry 2).prior = .empty ∧
    (({ jobWaits .keyStore with keys := List.replicate 16 { KeyEntry.empty with prior := .present } } : State).keyEntry 2).prior ≠
      .empty ∧
    occupiedState.seq.active ≠ none ∧ opened.seq.waiting = [] :=
  ⟨fun _ => ⟨rfl, rfl, rfl⟩, by decide, rfl, ⟨_, rfl, by decide⟩, by decide, by decide, by decide, rfl⟩

/-- A uniformity record at the ends of its ranges (R150), of R130's 27 680 bytes: SCAN reads 433 blocks of PANEL, the last
sector to its 49th block; and one of 129 columns, of which it reads none. -/
theorem witness_scan_reads :
    let r : CommitRecord := { CommitRecord.base with uniformityValid := true, cols := 128, rows := 72, width := 8, shift := 3,
                                                     uniLength := 27680 }
    let s := fun (r : CommitRecord) => ({ opened with latest := some { slot := 0, record := r } } : State)
    r.uniformitySound = true ∧ ((s r).scanSteps lay).length = 26 ∧ (s r).uniformityBlocks = 433 ∧
    ((s r).scanSteps lay).drop 18 = .read 0x107000 1732 (.aside false) :: (List.range 7).map (fun i =>
      .read (0x100000 + 4096 * i) (if i = 6 then 3136 else 4096) (.scanPanel i)) ∧
    ((s { r with cols := 129 }).scanSteps lay).length = 18 := by decide

/-- The reads of a rewrite of each form (R129): KEYS, PANEL, and PANEL_CHECK over one block, and over none. -/
theorem witness_rewrite_reads :
    let rw := fun (sector : Nat) => ({ sector := sector, splice := none, scrub := true, second := false } : Rewrite)
    let counts := fun (blocks sector : Nat) => (rewriteReads lay blocks (rw sector)).length
    counts 433 0x120000 = 16 ∧ counts 433 0x106000 = 17 ∧ counts 433 0x107000 = 23 ∧ counts 1 0x107000 = 17 ∧
    counts 0 0x107000 = 16 := by decide

theorem witness_StepsBeginWhileTheLaneIsFree :
    lockedAndHeld.laneBusy = true ∧
    (∀ (ph : Phase) (todo : List Step), (working (active .park .work ph todo)).laneBusy = false ∧
      (working (active .park .work ph todo)).seq.active = some (active .park .work ph todo) ∧
      (working (active .park .work ph todo)).layout = some lay ∧ (working (active .park .work ph todo)).latest = none ∧
      (active .park .work ph todo).phase = ph ∧ (active .park .work ph todo).todo = todo) ∧
    JobKind.park ≠ .scan ∧ JobKind.park ≠ .scrub ∧ paused.pfw = true ∧
    (working (active .park .work .ready [.erase 0x130000])).pfw = false ∧ (Step.program 0 [1]).writes = true ∧
    (∀ a, opened.seq.active = some a → a.phase ≠ .occupied) ∧
    ∃ y, ({ occupiedState with latest := some { slot := 127, record := fullRecord } } : State).latest = some y ∧
      4294967295 ≤ y.record.ringGen :=
  ⟨by decide, fun _ _ => ⟨rfl, rfl, rfl, rfl, rfl, rfl⟩, by decide, by decide, rfl, rfl, rfl,
    (fun a h => nomatch (h : none = some a)), _, rfl, by decide⟩

/-- An append of a kind at its first step, with all that a job gathers and no record yet. -/
def toAppend (k : JobKind) : State :=
  { appending with seq := { appending.seq with
      active := some { active k .append .ready [.read 0x140040 64 .probeTarget] with
        data := { JobData.empty with
          grid := some grid2, key := some (lastKey, []), header := some { id := 1, scale := 256, classes := [] } } } } }

theorem witness_an_append_builds_its_record :
    (∀ k, (toAppend k).laneBusy = false ∧ ∃ a, (toAppend k).seq.active = some a ∧ a.job.kind = k ∧ a.stage = .append ∧
      a.phase = .ready ∧ a.todo = .read 0x140040 64 .probeTarget :: [] ∧ a.data.record = none ∧ a.data.grid = some grid2 ∧
      a.data.key = some (lastKey, []) ∧ a.data.header = some { id := 1, scale := 256, classes := [] }) ∧
    (∃ x, (toAppend .closeOut).latest = some x) ∧ appendJob.data.record = some record2 :=
  ⟨fun _ => ⟨rfl, _, rfl, rfl, rfl, rfl, rfl, rfl, rfl, rfl, rfl⟩, ⟨_, rfl⟩, rfl⟩

/-- A CLOSE_OUT record carries the latest record on, with the closed flag and the next ring generation. -/
theorem test_closeOut_record :
    (after .sequencerStepBegin (toAppend .closeOut)).seq.active.bind (fun a => a.data.record) =
      some { CommitRecord.base with
        kind := 5, closed := true, ringGen := 2, station := 7, timeValid := true } := by decide

/-- The write that the append verifies. -/
def appendWrite : SectorWrite := embeddedWrite 0x140000 false 0x140040 (embedBlock record2.data)

/-- KEY_STORE reads slot 2, of a set with the closed flag and no ring generation left. -/
def probing : State :=
  { working { active .keyStore .work .reading [.read 0x120400 64 .probeSlot] with
              data := { JobData.empty with key := some (lastKey, List.replicate 512 0) } } with
    latest := some { slot := 127, record := fullRecord } }

theorem witness_read_steps_probe_a_slot :
    probing.layout = some lay ∧
    (∃ a, probing.seq.active = some a ∧ a.phase = .reading ∧ a.todo = .read 0x120400 64 .probeSlot :: [] ∧
      a.job.kind = .keyStore ∧ a.stage = .work ∧ a.data.key = some (lastKey, List.replicate 512 0)) ∧
    (List.replicate 512 (0 : Byte)).length = 512 ∧ probing.closedFlag = true ∧
    (∃ y, probing.latest = some y ∧ 4294967295 ≤ y.record.ringGen) ∧
    (∀ b ∈ Memory.read (Memory.setAll probing.flash.cells []) 0x120400 64, b = 0xFF) ∧
    ¬(∀ b ∈ Memory.read (Memory.setAll probing.flash.cells [(0x12043F, 0)]) 0x120400 64, b = 0xFF) :=
  ⟨rfl, ⟨_, rfl, rfl, rfl, rfl, rfl, rfl⟩, List.length_replicate, rfl, ⟨_, rfl, by decide⟩, by decide +kernel,
    by decide +kernel⟩

theorem witness_ReadStepsJudgeWhatTheyRead :
    (working (active .park .work .polling [])).layout = some lay ∧
    (∀ (k : JobKind) (st : Stage) (u : Use) (rest : List Step),
      let s := { appending with seq := { appending.seq with
        active := some { active k st .reading (.read 0x140040 64 u :: rest) with
          data := { appendJob.data with key := some (lastKey, []), header := some { id := 1, scale := 256, classes := [] } } } } }
      s.layout = some lay ∧ ∃ a, s.seq.active = some a ∧ a.phase = .reading ∧ a.todo = .read 0x140040 64 u :: rest ∧
        a.job.kind = k ∧ a.stage = st ∧ a.data.record = some record2 ∧ a.data.key = some (lastKey, []) ∧
        a.data.header = some { id := 1, scale := 256, classes := [] }) ∧
    (∀ y, appending.latest = some y → y.record.ringGen < 4294967295) ∧
    (
      let bytes := Memory.read (Memory.setAll appending.flash.cells []) 0x140040 64
      bytes = appendWrite.bytes ∧ appendWrite.decodes lay bytes appendJob.data.aside = appendWrite.expects) ∧
    (
      let bytes := Memory.read (Memory.setAll appending.flash.cells [(0x140040, 0)]) 0x140040 64
      bytes ≠ appendWrite.bytes ∧ profileHeader bytes = none ∧ ¬(∀ b ∈ bytes, b = 0xFF)) ∧
    appendWrite.second = false ∧ appendWrite.erased = false ∧ appending.closedFlag = false ∧
    ({ appendWrite with second := true } : SectorWrite).second = true ∧
    ({ appendWrite with erased := true } : SectorWrite).erased = true ∧
    (∀ b ∈ Memory.read (Memory.setAll opened.flash.cells []) 0x140040 64, b = 0xFF) ∧
    (profileHeader (embedBlock [0x52, 0x47, 17, 230, 0, 0])).map (fun h => h.scale) = some 230 ∧ opened.scale = 256 ∧
    selected.scale = 230 := by
  refine ⟨rfl, fun _ _ _ _ => ⟨rfl, _, rfl, rfl, rfl, rfl, rfl, rfl, rfl, rfl⟩, ?_, by decide +kernel, by decide +kernel, rfl, rfl,
    by decide, rfl, rfl, by decide +kernel, by decide +kernel, rfl, rfl⟩
  intro y h
  obtain rfl := Option.some.inj (h.symm : some y = some { slot := 0, record := { CommitRecord.base with kind := 2, ringGen := 1 } })
  decide

/-- A job at a read step. -/
def reads (k : JobKind) (u : Use) (rest : List Step) : Active := active k .work .reading (.read 0x140000 192 u :: rest)

/-- One GOOD block, one with its check damaged and one with two bytes damaged. -/
def threeBlocks : List Byte := embedBlock [1] ++ (embedBlock [1]).set 60 77 ++ ((embedBlock [1]).set 5 9).set 7 9

/-- A sector tally of sixteen entries, the third the oldest of the lowest count. -/
def fullTally : List TallyEntry :=
  (List.range 16).map (fun i => { sector := 4096 * i, count := if i < 2 then 5 else 2, reported := false })

theorem witness_ScansReportWhatTheyFind :
    (∀ (k : JobKind) (u : Use) (rest : List Step),
      (working (reads k u rest)).layout = some lay ∧ (working (reads k u rest)).seq.active = some (reads k u rest) ∧
      (reads k u rest).phase = .reading ∧ (reads k u rest).stage = .work ∧ (reads k u rest).job.kind = k ∧
      (reads k u rest).todo = .read 0x140000 192 u :: rest) ∧
    (blocksOf (Memory.read (Memory.setAll (cellsAt 0x140000 threeBlocks) []) 0x140000 192)).map decodeEmbedded =
      [.good, .checkOnly, .uncorrectable] ∧
    (∃ y ∈ fullTally, y.sector = 4096 ∧ y.count = 5) ∧ (∀ z ∈ fullTally, z.sector ≠ 0x140000) ∧ 16 ≤ fullTally.length ∧
    (∃ pre y post, fullTally = pre ++ y :: post ∧ (∀ z ∈ pre, y.count < z.count) ∧ ∀ z ∈ post, y.count ≤ z.count) ∧
    ([] : List TallyEntry).length < 16 ∧ (storing.keyEntry 2).state = .pending ∧ (storing.keyEntry 3).state ≠ .pending ∧
    7 % 8 = 7 ∧ 8 % 8 ≠ 7 ∧ opened.closedFlag = false ∧
    (foundBlocks lay 0 0x140000 threeBlocks []).map (fun f => f.decode.corrected) = [false, true, false] ∧
    (foundBlocks lay 0 0x140000 (embedBlock [1]) []).map (fun f => f.decode.corrected) = [false] := by
  refine ⟨fun _ _ _ => ⟨rfl, rfl, rfl, rfl, rfl, rfl⟩, by decide +kernel, by decide +kernel, by decide +kernel, by decide +kernel,
    ⟨fullTally.take 2, { sector := 8192, count := 2, reported := false }, fullTally.drop 3, by decide +kernel, by decide +kernel,
      by decide +kernel⟩, by decide, by decide, by decide, rfl, by decide, by decide, by decide +kernel, by decide +kernel⟩


end Sys2Proof.Tests
end

section
/-! GEOMETRY at its owner (04_the_zone_grid.md, R40): what its checks ask of the state, what an accepted one changes, and
the statement O43. -/

namespace Sys2Proof.Machine

/-! ## The checks -/

/-- R40's frame check fails when a buffer is FILLING, QUEUED or SOLVING. -/
theorem State.not_framesFree_iff (s : State) :
    (!s.framesFree) = true ↔ s.frame0.state ≠ .free ∨ s.frame1.state ≠ .free := by
  simp only [State.framesFree, Bool.not_eq_true', Bool.and_eq_false_iff, decide_eq_false_iff_not, ne_eq]

/-- The generations are used up when the mark stands at the greatest, 2^32 - 1 (R44). -/
theorem Grid.exhausted_iff (g : Grid) : g.exhausted = true ↔ 4294967295 ≤ g.genMark :=
  decide_eq_true_iff

/-! ## The change -/

/-- An accepted GEOMETRY changes these fields and no others (R40, R43). -/
theorem State.applyGeometry_eq (s : State) (x y : Nat) :
    s.applyGeometry x y = { s with
      grid := { s.grid with
        geometry := some { cols := x, rows := y }
        codes := List.replicate (3 * (x * y)) 0
        marks := List.replicate (3 * (x * y)) false
        generation := s.grid.genMark + 1
        genMark := s.grid.genMark + 1 }
      history := { s.history with stack := [] }
      report := none
      classMap := List.replicate (x * y) none } := rfl

/-! ## The record -/

/-- The owner's verdict, with each check read as its condition on the state: R175's first, then R40's in its order. -/
theorem judgeGeometry_eq (body : List Byte) (s : State) :
    judgeGeometry body s =
      if s.closingOut = true then (s, .busy)
      else if byteAt body 0 < 1 ∨ 128 < byteAt body 0 ∨ byteAt body 1 < 1 ∨ 72 < byteAt body 1 then (s, .range)
      else if 4294967295 ≤ s.grid.genMark then (s, .range)
      else if s.frame0.state ≠ .free ∨ s.frame1.state ≠ .free then (s, .busy)
      else if s.grid.lock ≠ none then (s, .busy)
      else (s.applyGeometry (byteAt body 0) (byteAt body 1), .accepted) := by
  simp only [judgeGeometry, State.not_framesFree_iff, Grid.exhausted_iff, Option.isSome_iff_ne_none]

/-- In OPEN a GEOMETRY with both its fields is answered by the owner's verdict (R29, R32). -/
theorem exec_geometry_open {s : State} {body : List Byte} (tag : Byte) (hopen : s.inOpen = true) (hlen : 2 ≤ body.length) :
    exec (.geometry tag body) s = .next ((judgeGeometry body s).1.answered tag (judgeGeometry body s).2) :=
  congrArg Host.Outcome.next (State.recordCommand_open (k := .geometry) tag hopen hlen)

/-- Settles O43: the verdict of R40 is followed check by check; each refusal answers the state unchanged, and the last case
answers the changed one. -/
theorem geometryStartsANewGrid : Obligations.GeometryStartsANewGrid := by
  intro tag body s hopen hlen
  dsimp only
  rw [exec_geometry_open tag hopen hlen, judgeGeometry_eq]
  split_ifs with closing outOfRange exhausted framesInUse locked
  case neg => rw [State.applyGeometry_eq]
  -- the five refusals answer `s` itself
  all_goals rfl

end Sys2Proof.Machine
end

section
/-! FRAME_OPEN at its owner (05_measurement_frames.md, R55, R56): what its checks ask of the record and the state, what an
accepted one writes, and the statement O45. -/

namespace Sys2Proof.Machine

/-! ## The checks -/

/-- A plane's number names that plane (R39). -/
@[simp] theorem planeOf_index (p : Plane) : planeOf p.index = some p := by
  cases p <;> rfl

/-- R55's plane check fails outside 0..2. -/
theorem planeOf_eq_none {n : Nat} (h : 2 < n) : planeOf n = none := by
  obtain ⟨m, rfl⟩ : ∃ m, n = m + 3 := ⟨n - 3, by omega⟩
  rfl

/-- R55's rectangle check fails when the rectangle is empty or reaches past the last column or row. -/
theorem Grid.not_holdsRect_iff (g : Grid) (r : Rect) :
    (!g.holdsRect r) = true ↔ r.w = 0 ∨ r.h = 0 ∨ g.cols < r.x0 + r.w ∨ g.rows < r.y0 + r.h := by
  simp only [Grid.holdsRect, Bool.not_eq_true', Bool.and_eq_false_iff, decide_eq_false_iff_not, ne_eq, not_not, not_le,
    or_assoc]

/-- Some buffer is in a state when buffer 0 or buffer 1 is. -/
theorem State.anyFrame_iff (s : State) (st : FrameState) :
    s.anyFrame st = true ↔ s.frame0.state = st ∨ s.frame1.state = st := by
  simp only [State.anyFrame, Bool.or_eq_true, decide_eq_true_eq]

/-- A buffer in a state is looked for at buffer 0 first (R56). -/
theorem State.frameIn_buffer0 {s : State} {st : FrameState} (h0 : s.frame0.state = st) : s.frameIn st = some false :=
  if_pos h0

/-- Buffer 1 is found when buffer 0 is in another state (R56). -/
theorem State.frameIn_buffer1 {s : State} {st : FrameState} (h0 : s.frame0.state ≠ st) (h1 : s.frame1.state = st) :
    s.frameIn st = some true := by
  rw [State.frameIn, if_neg h0, if_pos h1]

/-- No buffer is found when neither is in the state. -/
theorem State.frameIn_none {s : State} {st : FrameState} (h0 : s.frame0.state ≠ st) (h1 : s.frame1.state ≠ st) :
    s.frameIn st = none := by
  rw [State.frameIn, if_neg h0, if_neg h1]

/-! ## The change -/

/-- The frame an accepted FRAME_OPEN puts in its buffer: FILLING, with the record's tag, plane and rectangle and no value
present (R56). -/
def openedFrame (body : List Byte) (p : Plane) : Frame :=
  { state := .filling, tag := body.getD 0 0, plane := p, rect := frameOpenRect body,
    slots := List.replicate ((frameOpenRect body).w * (frameOpenRect body).h) none, snapshot := none, discard := false }

/-! ## The record -/

/-- While a CLOSE_OUT job is in progress a FRAME_OPEN is refused before any other check (R175). -/
theorem judgeFrameOpen_closingOut {s : State} (body : List Byte) (hclosing : s.closingOut = true) :
    judgeFrameOpen body s = (s, .busy) :=
  if_pos hclosing

/-- A plane outside 0..2 is the first of R55's refusals. -/
theorem judgeFrameOpen_unknownPlane {s : State} {body : List Byte} (hclosing : s.closingOut = false)
    (hplane : 2 < byteAt body 1) : judgeFrameOpen body s = (s, .range) := by
  simp only [judgeFrameOpen, hclosing, planeOf_eq_none hplane, Bool.false_eq_true, if_false]

/-- The owner's verdict on a FRAME_OPEN of a known plane, with each later check of R55 read as its condition on the record
and the state, and R56's choice of the buffer. -/
theorem judgeFrameOpen_plane {s : State} {body : List Byte} {p : Plane} (hclosing : s.closingOut = false)
    (hplane : byteAt body 1 = p.index) :
    judgeFrameOpen body s =
      if s.grid.geometry = none ∨ s.grid.planeRecord p = none then (s, .notReady)
      else if byteAt body 4 = 0 ∨ byteAt body 5 = 0 ∨ s.grid.cols < byteAt body 2 + byteAt body 4
          ∨ s.grid.rows < byteAt body 3 + byteAt body 5 then (s, .range)
      else if s.frame0.state = .filling ∨ s.frame1.state = .filling then (s, .frameHeld)
      else if s.frame0.state = .free then ({ s with frame0 := openedFrame body p }, .accepted)
      else if s.frame1.state = .free then ({ s with frame1 := openedFrame body p }, .accepted)
      else (s, .queueFull) := by
  simp only [judgeFrameOpen, hclosing, hplane, planeOf_index, Option.isNone_iff_eq_none, Grid.not_holdsRect_iff,
    State.anyFrame_iff, Bool.false_eq_true, if_false, ← ite_or]
  -- the refusals before it agree; what is left is the choice of the buffer
  congr 3
  by_cases free0 : s.frame0.state = .free
  · rw [State.frameIn_buffer0 free0, if_pos free0]
    rfl
  by_cases free1 : s.frame1.state = .free
  · rw [State.frameIn_buffer1 free0 free1, if_neg free0, if_pos free1]
    rfl
  · rw [State.frameIn_none free0 free1, if_neg free0, if_neg free1]

/-- In OPEN a FRAME_OPEN with all its fields is answered by the owner's verdict (R29, R32). -/
theorem exec_frameOpen_open {s : State} {body : List Byte} (tag : Byte) (hopen : s.inOpen = true) (hlen : 6 ≤ body.length) :
    exec (.frameOpen tag body) s = .next ((judgeFrameOpen body s).1.answered tag (judgeFrameOpen body s).2) :=
  congrArg Host.Outcome.next (State.recordCommand_open (k := .frameOpen) tag hopen hlen)

/-- Settles O45: R175's check and R55's plane check end the verdict at once; for a known plane the later checks are followed
in their order, and R56 picks the buffer. -/
theorem frameOpenTakesAFreeBuffer : Obligations.FrameOpenTakesAFreeBuffer := by
  intro tag body s hopen hlen
  dsimp only
  rw [exec_frameOpen_open tag hopen hlen]
  refine ⟨fun closing => ?_, fun notClosing => ⟨fun badPlane => ?_, fun p plane => ?_⟩⟩
  · rw [judgeFrameOpen_closingOut body closing]
  · rw [judgeFrameOpen_unknownPlane notClosing badPlane]
  · rw [judgeFrameOpen_plane notClosing plane]
    -- the lemma's chain and the statement's have the same conditions, in the same order
    split_ifs <;> rfl

end Sys2Proof.Machine
end

section
/-! WATCH at its owner (08_presenting_the_grid.md, R112): the kinds its codes name, its verdict, and the statement O49. -/

namespace Sys2Proof.Machine

/-! ## The checks -/

/-- A watch kind's code names that kind (R112). -/
@[simp] theorem watchKindOf_code (k : WatchKind) : watchKindOf k.code = some k := by
  cases k <;> rfl

/-- R112's kind check fails outside 0..3. -/
theorem watchKindOf_eq_none {n : Nat} (h : 3 < n) : watchKindOf n = none := by
  obtain ⟨m, rfl⟩ : ∃ m, n = m + 4 := ⟨n - 4, by omega⟩
  rfl

/-! ## The change -/

/-- The monitor an accepted WATCH sets: the record's kind, base and mask, with nothing counted or served yet (R112). -/
def namedWatch (body : List Byte) (k : WatchKind) : Watch :=
  { kind := k, base := addressAt body 2, mask := addressAt body 5, count := 0, lastGen := 0 }

/-! ## The record -/

/-- A kind outside 0..3 is refused, whatever watch is named (R112). -/
theorem judgeWatch_unknownKind {body : List Byte} (s : State) (hkind : 3 < byteAt body 1) :
    judgeWatch body s = (s, .range) := by
  rw [judgeWatch, watchKindOf_eq_none hkind]

/-- A watch number outside 0..3 is refused, whatever kind is asked for (R112). -/
theorem judgeWatch_unknownWatch {body : List Byte} (s : State) (hwatch : 3 < byteAt body 0) :
    judgeWatch body s = (s, .range) := by
  rw [judgeWatch]
  split
  · exact if_neg (Nat.not_le.mpr hwatch)
  · rfl

/-- A known kind for one of the four watches is set there, and the other watches keep what they hold (R112). -/
theorem judgeWatch_set {body : List Byte} {k : WatchKind} (s : State) (hwatch : byteAt body 0 ≤ 3)
    (hkind : byteAt body 1 = k.code) :
    judgeWatch body s = ({ s with watches := s.watches.set (byteAt body 0) (namedWatch body k) }, .accepted) := by
  rw [judgeWatch, hkind, watchKindOf_code]
  exact if_pos hwatch

/-- In OPEN a WATCH with all its fields is answered by the owner's verdict (R29, R32). -/
theorem exec_watch_open {s : State} {body : List Byte} (tag : Byte) (hopen : s.inOpen = true) (hlen : 8 ≤ body.length) :
    exec (.watch tag body) s = .next ((judgeWatch body s).1.answered tag (judgeWatch body s).2) :=
  congrArg Host.Outcome.next (State.recordCommand_open (k := .watch) tag hopen hlen)

/-- Settles O49: either field outside its range ends the verdict with RANGE; within both, the named watch is set. -/
theorem watchSetsOneMonitor : Obligations.WatchSetsOneMonitor := by
  intro tag body s hopen hlen
  rw [exec_watch_open tag hopen hlen]
  refine ⟨fun outOfRange => ?_, fun hwatch k hkind => ?_⟩
  · rcases outOfRange with badWatch | badKind
    · rw [judgeWatch_unknownWatch s badWatch]
    · rw [judgeWatch_unknownKind s badKind]
  · rw [judgeWatch_set s hwatch hkind]
    rfl

end Sys2Proof.Machine
end

section
/-! KEY_STAGE, KEY_MORE and KEY_UNSTAGE at their owner (11_key_slots.md, R157 to R160): what a chunk does to the staging
buffer, what the checks of R158 ask of the record, and the statement O51. -/

namespace Sys2Proof.Machine

/-! ## The buffer -/

/-- A chunk's bytes are put behind the bytes filled, as many as there is room for below the total; the bytes behind them
stand, and the buffer is COMPLETE when bytes filled reaches the total (R158, R159). -/
theorem Staging.append_eq {g : Staging} {chunk : List Byte} {n : Nat} (hn : n = min (g.total - g.filled) chunk.length) :
    g.append chunk = { g with
      state := if g.filled + n < g.total then .filling else .complete
      filled := g.filled + n
      payload := g.payload.take g.filled ++ chunk.take n ++ g.payload.drop (g.filled + n) } := by
  have keptLength : (chunk.take n).length = n := by rw [List.length_take]; omega
  have keptBytes : chunk.take (g.total - g.filled) = chunk.take n := by rw [List.take_eq_take_min, ← hn]
  simp only [Staging.append, overwrite, keptBytes, keptLength]

/-- The first chunk of a key stands at the front of the payload of a buffer that was clear (R158). -/
theorem Staging.append_first {chunk : List Byte} {slot cls total n : Nat} (hn : n = min total chunk.length) :
    ({ Staging.idle with slot := slot, cls := cls, total := total } : Staging).append chunk =
      { state := if n < total then .filling else .complete, slot := slot, cls := cls, total := total, filled := n,
        payload := chunk.take n ++ List.replicate (448 - n) 0 } := by
  rw [Staging.append_eq (n := n)]
  · simp only [Staging.idle, Nat.zero_add, List.take_zero, List.nil_append, List.drop_replicate]
  · exact hn

/-! ## The records -/

/-- The owner's verdict on a KEY_STAGE, with R158's checks in its order and the change spelled; a chunk of more than 240
bytes is a body of more than 244. -/
theorem judgeKeyStage_eq {body : List Byte} {n : Nat} (s : State) (hn : n = min (fieldAt body 2 2) (body.length - 4)) :
    judgeKeyStage body s =
      if s.staging.state ≠ .idle then (s, .stageState)
      else if 15 < byteAt body 0 ∨ byteAt body 1 < 1 ∨ 15 < byteAt body 1 ∨ fieldAt body 2 2 < 16 ∨ 448 < fieldAt body 2 2
          ∨ 244 < body.length then (s, .range)
      else if s.classTaken (byteAt body 0) (byteAt body 1) = true then (s, .classTaken)
      else
        ({ s with staging :=
            { state := if n < fieldAt body 2 2 then .filling else .complete, slot := byteAt body 0, cls := byteAt body 1,
              total := fieldAt body 2 2, filled := n,
              payload := (body.drop 4).take n ++ List.replicate (448 - n) 0 } },
          if fieldAt body 2 2 < body.length - 4 then .truncated else .accepted) := by
  have chunkTooLong : 240 < body.length - 4 ↔ 244 < body.length := by omega
  have room : n = min (fieldAt body 2 2) (body.drop 4).length := by rw [hn, List.length_drop]
  simp only [judgeKeyStage, Staging.append_first room, List.length_drop, chunkTooLong]

/-- The owner's verdict on a KEY_MORE, with the change spelled (R159). -/
theorem judgeKeyMore_eq {body : List Byte} {s : State} {n : Nat}
    (hn : n = min (s.staging.total - s.staging.filled) body.length) :
    judgeKeyMore body s =
      if s.staging.state ≠ .filling then (s, .stageState)
      else
        ({ s with staging := { s.staging with
            state := if s.staging.filled + n < s.staging.total then .filling else .complete
            filled := s.staging.filled + n
            payload := s.staging.payload.take s.staging.filled ++ body.take n ++
              s.staging.payload.drop (s.staging.filled + n) } },
          if s.staging.total < s.staging.filled + body.length then .truncated else .accepted) := by
  rw [judgeKeyMore, Staging.append_eq hn]

/-- In OPEN a KEY_STAGE with a first byte of its chunk is answered by the owner's verdict (R29, R32). -/
theorem exec_keyStage_open {s : State} {body : List Byte} (tag : Byte) (hopen : s.inOpen = true) (hlen : 5 ≤ body.length) :
    exec (.keyStage tag body) s = .next ((judgeKeyStage body s).1.answered tag (judgeKeyStage body s).2) :=
  congrArg Host.Outcome.next (State.recordCommand_open (k := .keyStage) tag hopen hlen)

/-- In OPEN a KEY_MORE with at least one byte is answered by the owner's verdict (R29, R32). -/
theorem exec_keyMore_open {s : State} {body : List Byte} (tag : Byte) (hopen : s.inOpen = true) (hlen : 1 ≤ body.length) :
    exec (.keyMore tag body) s = .next ((judgeKeyMore body s).1.answered tag (judgeKeyMore body s).2) :=
  congrArg Host.Outcome.next (State.recordCommand_open (k := .keyMore) tag hopen hlen)

/-- In OPEN a KEY_UNSTAGE, with any body, is answered by the owner's verdict (R29, R32). -/
theorem exec_keyUnstage_open {s : State} (tag : Byte) (body : List Byte) (hopen : s.inOpen = true) :
    exec (.keyUnstage tag body) s = .next ((judgeKeyUnstage s).1.answered tag (judgeKeyUnstage s).2) :=
  congrArg Host.Outcome.next (State.recordCommand_open (k := .keyUnstage) tag hopen (Nat.zero_le _))

/-- Settles O51: each of the three verdicts is followed check by check; a refusal answers the state unchanged, and the last
case of each answers the filled or the cleared buffer. -/
theorem stagingFillsInOrder : Obligations.StagingFillsInOrder := by
  intro tag body s hopen
  refine ⟨fun hlen => ?stage, fun hlen => ?more, ?unstage⟩
  case stage =>
    dsimp only
    rw [exec_keyStage_open tag hopen hlen, judgeKeyStage_eq s rfl]
    split_ifs <;> rfl
  case more =>
    dsimp only
    rw [exec_keyMore_open tag hopen hlen, judgeKeyMore_eq rfl]
    split_ifs <;> rfl
  case unstage =>
    rw [exec_keyUnstage_open tag body hopen, judgeKeyUnstage]
    split_ifs <;> rfl

end Sys2Proof.Machine
end

section
/-! REGION and CLOSE_OUT at their owner (12_region_profiles_and_close_out.md, R171, R174, R175): what the checks of REGION
and the seven preconditions ask of the state, and the statement O53. -/

namespace Sys2Proof.Machine

/-! ## The checks -/

/-- R174's fourth precondition: a class list has been read, and each class in it is held by a slot that is PRESENT. -/
def State.classesHeld (s : State) : Bool :=
  match s.region.classes with
  | some needed => needed.all (fun c => s.keys.any (fun e => decide (e.state = .present ∧ e.cls = c)))
  | none => false

/-- The seven preconditions, each read as its condition on the state (R174). -/
theorem State.preconditions_eq (s : State) :
    s.preconditions =
      [decide (s.seq.active = none ∧ s.seq.waiting = []),
       s.framesFree,
       s.region.selected.isSome,
       s.classesHeld,
       !s.keys.any (fun e => decide (e.state = .damaged ∨ e.state = .pending)),
       s.clean && decide (s.latest.map (fun x => x.record.poisoned) = some 0),
       decide (s.grid.markCount = 0)] := by
  simp only [State.preconditions, List.cons.injEq, true_and, and_true]
  refine ⟨?queue, ?classes, ?keys, ?image⟩
  case queue =>
    rw [Bool.eq_iff_iff]
    simp only [State.jobInProgress, Bool.and_eq_true, Bool.not_eq_true', Option.isSome_eq_false_iff,
      Option.isNone_iff_eq_none, List.isEmpty_iff, decide_eq_true_eq]
  case classes =>
    rw [State.classesHeld]
    cases s.region.classes with
    | none => rfl
    | some needed =>
      simp only [Bool.decide_and]
      rfl
  case keys =>
    simp only [List.all_eq_not_any_not, Bool.not_and, decide_not, Bool.not_not, Bool.decide_or]
  case image =>
    cases s.latest with
    | none => rfl
    | some x => simp only [Option.map_some, Option.some.injEq]

/-- The first precondition that fails, looked for in the order of R174. -/
theorem State.failedPrecondition_eq (s : State) :
    s.failedPrecondition =
      if s.seq.active ≠ none ∨ s.seq.waiting ≠ [] then some 1
      else if s.frame0.state ≠ .free ∨ s.frame1.state ≠ .free then some 2
      else if s.region.selected = none then some 3
      else if s.classesHeld = false then some 4
      else if s.keys.any (fun e => decide (e.state = .damaged ∨ e.state = .pending)) = true then some 5
      else if s.clean = false ∨ s.latest.map (fun x => x.record.poisoned) ≠ some 0 then some 6
      else if s.grid.markCount ≠ 0 then some 7
      else none := by
  have framesInUse : s.framesFree = false ↔ s.frame0.state ≠ .free ∨ s.frame1.state ≠ .free := by
    rw [← Bool.not_eq_true', State.not_framesFree_iff]
  rw [State.failedPrecondition, State.preconditions_eq]
  simp only [List.findIdx?_cons, List.findIdx?_nil, framesInUse, Bool.not_eq_true', Bool.not_eq_false',
    decide_eq_false_iff_not, not_and_or, Bool.and_eq_false_iff, Option.isSome_eq_false_iff, Option.isNone_iff_eq_none, ← ne_eq]
  -- the conditions agree; what is left is each failing precondition's place in the list
  split_ifs <;> rfl

/-! ## The change -/

/-- The close-out index as a CLOSE_OUT record leaves it (R33). -/
def State.setCloseOutIndex (s : State) (n : Nat) : State :=
  { s with intake := { s.intake with closeOutIndex := n } }

/-! ## The records -/

/-- The owner's verdict on a REGION, with each check read as its condition on the state: R175's first, then R171's in its
order. A slot whose profile is not known would not change the scale. -/
theorem judgeRegion_eq (tag : Byte) (body : List Byte) (s : State) :
    judgeRegion tag body s =
      if s.closingOut = true then (s, .busy)
      else if 7 < byteAt body 0 then (s, .range)
      else if s.closedFlag = true then (s, .closed)
      else if s.session.publishSeen = true ∧
          ((s.region.directory.getD (byteAt body 0) none).map (fun h => h.scale)).getD s.scale ≠ s.scale then
        (s, .gridStarted)
      else if 4 ≤ s.seq.waiting.length then (s, .queueFull)
      else (s.queueJob { kind := .regionSelect, tag := tag, slot := byteAt body 0, sector := 0 }, .queued) := by
  cases known : s.region.directory.getD (byteAt body 0) none with
  | none =>
    simp only [judgeRegion, known, State.queueFull, Option.map_none, Option.getD_none, ne_eq, not_true_eq_false, and_false,
      decide_eq_true_eq, Bool.false_eq_true]
  | some header =>
    simp only [judgeRegion, known, State.queueFull, Option.map_some, Option.getD_some, Bool.and_eq_true, decide_eq_true_eq]

/-- In OPEN a REGION with its slot byte is answered by the owner's verdict (R29, R32). -/
theorem exec_region_open {s : State} {body : List Byte} (tag : Byte) (hopen : s.inOpen = true) (hlen : 1 ≤ body.length) :
    exec (.region tag body) s = .next ((judgeRegion tag body s).1.answered tag (judgeRegion tag body s).2) :=
  congrArg Host.Outcome.next (State.recordCommand_open (k := .region) tag hopen hlen)

/-- In OPEN a CLOSE_OUT, with any body, is answered by the owner's verdict (R29, R32): PRECONDITION with the number of the
first precondition that fails, or QUEUED with the index at 0 (R33). -/
theorem exec_closeOut_open {s : State} (tag : Byte) (body : List Byte) (hopen : s.inOpen = true) :
    exec (.closeOut tag body) s =
      .next (if s.closingOut = true then s.answered tag .busy
        else if s.seq.active ≠ none ∨ s.seq.waiting ≠ [] then (s.setCloseOutIndex 1).answered tag .precondition
        else if s.frame0.state ≠ .free ∨ s.frame1.state ≠ .free then (s.setCloseOutIndex 2).answered tag .precondition
        else if s.region.selected = none then (s.setCloseOutIndex 3).answered tag .precondition
        else if s.classesHeld = false then (s.setCloseOutIndex 4).answered tag .precondition
        else if s.keys.any (fun e => decide (e.state = .damaged ∨ e.state = .pending)) = true then
          (s.setCloseOutIndex 5).answered tag .precondition
        else if s.clean = false ∨ s.latest.map (fun x => x.record.poisoned) ≠ some 0 then
          (s.setCloseOutIndex 6).answered tag .precondition
        else if s.grid.markCount ≠ 0 then (s.setCloseOutIndex 7).answered tag .precondition
        else ((s.setCloseOutIndex 0).queueJob (plainJob .closeOut tag)).answered tag .queued) := by
  have judged : exec (.closeOut tag body) s = .next ((judgeCloseOut tag s).1.answered tag (judgeCloseOut tag s).2) :=
    congrArg Host.Outcome.next (State.recordCommand_open (k := .closeOut) tag hopen (Nat.zero_le _))
  rw [judged, judgeCloseOut, State.failedPrecondition_eq]
  split_ifs <;> rfl

/-- Settles O53: each of the two verdicts is followed check by check; a failed precondition answers the state with its number
in the index, every other refusal the state unchanged, and the last case the state with the job queued. -/
theorem regionAndCloseOutAreJudged : Obligations.RegionAndCloseOutAreJudged := by
  intro tag body s hopen
  refine ⟨fun hlen => ?region, ?closeOut⟩
  case region =>
    dsimp only
    rw [exec_region_open tag hopen hlen, judgeRegion_eq]
    split_ifs <;> rfl
  case closeOut => exact exec_closeOut_open tag body hopen

end Sys2Proof.Machine
end

section
/-! What a command can do, said once, so that an invariant is proved once for each shared operation: the bytes of a transaction,
the verdict on a record, the run of a job, and the dispatch (`Kept`). -/

namespace Sys2Proof.Machine

/-! ## Bytes of a transaction pass (R1) -/

/-- The same transaction after more of its bytes: its command, its address and its treatment stand (R1). -/
def Txn.continues (t t' : Txn) : Prop :=
  t'.ignored = t.ignored ∧ t'.command = t.command ∧ t'.addr = t.addr ∧ t'.occupied = t.occupied ∧
    t'.treatment = t.treatment ∧ t'.remapSlot = t.remapSlot

/-- Bytes have passed: of the state they change the bytes served, the transaction itself, the panel read hold (taken inside a
served transaction alone, R45), the flash's operation (over once the flash answers not busy, R3) and the draws. -/
def State.passesTo (s u : State) : Prop :=
  u = s ∨ ∃ t t' sv hold op n, s.upstream = some t ∧ t.continues t' ∧
    (hold = s.grid.hold ∨ t.ignored = false ∧ hold = true) ∧
    u = { s with served := sv, upstream := some t', grid := { s.grid with hold := hold },
                 flash := { s.flash with op := op }, draws := n }

theorem Txn.continues_refl (t : Txn) : t.continues t := ⟨rfl, rfl, rfl, rfl, rfl, rfl⟩

theorem Txn.continues_trans {t u v : Txn} (h : t.continues u) (h' : u.continues v) : t.continues v := by
  obtain ⟨h1, h2, h3, h4, h5, h6⟩ := h
  obtain ⟨k1, k2, k3, k4, k5, k6⟩ := h'
  exact ⟨k1.trans h1, k2.trans h2, k3.trans h3, k4.trans h4, k5.trans h5, k6.trans h6⟩

theorem State.passesTo_trans {s u v : State} (h : s.passesTo u) (h' : u.passesTo v) : s.passesTo v := by
  rcases h with rfl | ⟨t, t', _, _, _, _, ht, hc, hh, rfl⟩
  · exact h'
  rcases h' with rfl | ⟨t1, t2, _, _, _, _, ht1, hc', hh', rfl⟩
  · exact .inr ⟨t, t', _, _, _, _, ht, hc, hh, rfl⟩
  obtain rfl : t' = t1 := Option.some.inj ht1
  refine .inr ⟨t, t2, _, _, _, _, ht, Txn.continues_trans hc hc', ?_, rfl⟩
  rcases hh' with rfl | ⟨hi, rfl⟩
  · exact hh
  · exact .inr ⟨hc.1 ▸ hi, rfl⟩

/-- A byte on U_SO, with what the transaction and the panel read hold keep of it. -/
theorem State.passesTo_emit {s : State} {t t' : Txn} (b : Byte) (hold : Bool) (op : Option FlashOp) (n : Nat)
    (ht : s.upstream = some t) (hc : t.continues t') (hh : hold = s.grid.hold ∨ t.ignored = false ∧ hold = true) :
    s.passesTo (State.emit { s with grid := { s.grid with hold := hold }, flash := { s.flash with op := op }, draws := n } t' b) :=
  .inr ⟨t, { t' with served := t'.served + 1 }, _, _, _, _, ht, hc, hh, rfl⟩

theorem State.passesTo_serveByte (s : State) : s.passesTo s.serveByte := by
  unfold State.serveByte
  split
  · exact .inl rfl
  rename_i t ht
  have emits : ∀ t' b, t.continues t' → s.passesTo (s.emit t' b) := fun t' b hc =>
    State.passesTo_emit b s.grid.hold s.flash.op s.draws ht hc (.inl rfl)
  split
  · exact emits _ _ t.continues_refl
  · rename_i served
    dsimp only
    split
    · split <;> exact emits _ _ t.continues_refl
    · exact State.passesTo_emit _ true s.flash.op s.draws ht t.continues_refl (.inr ⟨by simpa using served, rfl⟩)
    · split <;> exact emits _ _ t.continues_refl

theorem State.passesTo_statusByte (s : State) (busy : Bool) : s.passesTo (s.statusByte busy) := by
  unfold State.statusByte
  split
  · exact .inl rfl
  rename_i t ht
  have emits : ∀ b op n, s.passesTo (State.emit { s with flash := { s.flash with op := op }, draws := n } t b) := fun b op n =>
    State.passesTo_emit b s.grid.hold op n ht t.continues_refl (.inl rfl)
  split
  · exact emits _ s.flash.op s.draws
  · split
    · exact emits _ _ _
    · exact emits _ s.flash.op s.draws

theorem State.passesTo_idByte (s : State) : s.passesTo s.idByte := by
  unfold State.idByte
  split
  · exact .inl rfl
  rename_i t ht
  have emits : ∀ b, s.passesTo (s.emit t b) := fun b =>
    State.passesTo_emit b s.grid.hold s.flash.op s.draws ht t.continues_refl (.inl rfl)
  split
  · exact emits _
  · split <;> exact emits _

theorem State.passesTo_takeData (s : State) (data : List Byte) : s.passesTo (s.takeData data) := by
  unfold State.takeData
  split
  · exact .inl rfl
  · rename_i t ht
    exact .inr ⟨t, { t with data := t.data ++ data }, s.served, s.grid.hold, s.flash.op, s.draws, ht, t.continues_refl, .inl rfl,
      rfl⟩

theorem State.passesTo_unknownByte (s : State) (b : Byte) : s.passesTo (s.unknownByte b) := by
  unfold State.unknownByte
  split
  · exact .inl rfl
  rename_i t ht
  have emits : ∀ x, s.passesTo (s.emit { t with data := t.data ++ [b] } x) := fun x =>
    State.passesTo_emit x s.grid.hold s.flash.op s.draws ht t.continues_refl (.inl rfl)
  dsimp only
  split <;> exact emits _

theorem State.passesTo_serveBytes (n : Nat) (s : State) : s.passesTo (s.serveBytes n) := by
  induction n generalizing s with
  | zero => exact .inl rfl
  | succ n ih => exact State.passesTo_trans s.passesTo_serveByte (ih _)

theorem State.passesTo_statusBytes (n : Nat) (s : State) (busyFor : Nat) : s.passesTo (s.statusBytes n busyFor) := by
  induction n generalizing s busyFor with
  | zero => exact .inl rfl
  | succ n ih => exact State.passesTo_trans (s.passesTo_statusByte _) (ih _ _)

theorem State.passesTo_idBytes (n : Nat) (s : State) : s.passesTo (s.idBytes n) := by
  induction n generalizing s with
  | zero => exact .inl rfl
  | succ n ih => exact State.passesTo_trans s.passesTo_idByte (ih _)

theorem State.passesTo_unknownBytes (data : List Byte) (s : State) : s.passesTo (s.unknownBytes data) := by
  induction data generalizing s with
  | nil => exact .inl rfl
  | cons b t ih => exact State.passesTo_trans (s.passesTo_unknownByte b) (ih _)

/-! ## A predicate every command keeps -/

/-- The command of a kind is the taking of a record of that kind (log 14). -/
theorem exec_kindCommand (k : Kind) (tag : Byte) (body : List Byte) (s : State) :
    exec (k.command tag body) s = .next (s.recordCommand k tag body) := by
  cases k <;> rfl

/-- A predicate that each shared operation keeps. The operations that some statements leave out (a change of power, and the
steps that write the flash) are asked for only where `A` allows their command. -/
structure Kept (A : Instr → Prop) (P : State → Prop) : Prop where
  powerOn : ∀ {s} i, A (.powerOn i) → P s → P (s.powerOn i)
  powerLoss : ∀ {s} reached, A (.powerLoss reached) → P s → P (s.powerLoss reached)
  resetLine : ∀ {s : State} b, P s → P { s with sysRst := b }
  laneReset : ∀ {s : State} taken, s.sysRst = false → s.sysHold = false → P s → P (s.laneReset taken)
  pfwRise : ∀ {s}, P s → P s.pfwRise
  pfwFall : ∀ {s}, A .pfwDeassert → P s → P s.pfwFall
  tick : ∀ {s : State}, P s → P { s with session := s.session.tick }
  flashTimer : ∀ {s : State}, P s → P { s with lamp := s.lamp.flashTimer }
  lapse : ∀ {s : State} n, s.session.timer = .running n → P s → P s.lapse
  select : ∀ {s : State} c a, a < flashSize → s.upstream = none → P s → P (s.select c a)
  passes : ∀ {s u : State}, s.passesTo u → P s → P u
  deselect : ∀ {s}, P s → P s.deselect
  takeProgram : ∀ {s} offset data, s.recordsReach = true → P s → P (s.takeProgram offset data)
  takeFramed : ∀ {s} f, s.recordsReach = true → P s → P (s.takeFramed f)
  takeRecord : ∀ {s} k tag body, s.recordsReach = true → P s → P (s.takeRecord k tag body)
  takeFrame : ∀ {s}, P s → P s.takeFrame
  endComputing : ∀ {s}, P s → P s.endComputing
  publishWaiting : ∀ {s}, P s → P s.publishWaiting
  startDue : ∀ {s}, P s → P s.startDue
  beginStep : ∀ {s}, A .sequencerStepBegin → P s → P s.beginStep
  readDone : ∀ {s : State} l a busy misread, s.layout = some l → s.seq.active = some a → P s → P (s.readDone l a busy misread)
  endOccupied : ∀ {s : State} l, s.layout = some l → P s → P (s.endOccupied l)

section
variable {A : Instr → Prop} {P : State → Prop}

theorem Kept.lane (K : Kept A P) {s : State} (sp : Span) (c : LaneCommand) {a : Nat} (ha : a < flashSize) {bytes : State → State}
    (hb : ∀ x, State.passesTo x (bytes x)) (hs : P s) : P (s.lane sp c a bytes) := by
  have moved : ∀ x, P x → P (bytes x) := fun x => K.passes (hb x)
  cases sp <;> simp only [State.lane]
  case whole =>
    split
    · exact K.deselect (moved _ (K.select c a ha (Option.isNone_iff_eq_none.1 ‹_›) hs))
    · exact hs
  case opens =>
    split
    · exact moved _ (K.select c a ha (Option.isNone_iff_eq_none.1 ‹_›) hs)
    · exact hs
  case more =>
    split
    · exact moved _ hs
    · exact hs
  case closes =>
    split
    · exact K.deselect (moved _ hs)
    · exact hs

theorem Kept.recordCommand (K : Kept A P) {s : State} (k : Kind) (tag : Byte) (body : List Byte) (hs : P s) :
    ∃ u, P u ∧ s.recordCommand k tag body = u.settle := by
  refine ⟨_, ?_, rfl⟩
  split
  · exact K.takeRecord k tag body ‹_› hs
  · exact hs

/-- Every command ends by judging the lines of a state that has the predicate. -/
theorem Kept.exec (K : Kept A P) {c : Instr} {s t : State} (hc : A c) (h : exec c s = .next t) (hs : P s) :
    ∃ u, P u ∧ t = u.settle := by
  have first : 0 < flashSize := by decide
  have same : ∀ x, State.passesTo x (id x) := fun x => .inl rfl
  have record : ∀ (k : Kind) tag body, ∃ u, P u ∧ Machine.exec (k.command tag body) s = .next u.settle := fun (k : Kind) tag body => by
    obtain ⟨u, hu, e⟩ := K.recordCommand k tag body hs
    exact ⟨u, hu, (exec_kindCommand k tag body s).trans (congrArg _ e)⟩
  suffices ∃ u, P u ∧ Machine.exec c s = .next u.settle by
    obtain ⟨u, hu, e⟩ := this
    exact ⟨u, hu, Host.Outcome.next.inj (h.symm.trans e)⟩
  cases c with
  | powerOn i => exact ⟨_, K.powerOn i hc hs, rfl⟩
  | powerLoss reached => exact ⟨_, K.powerLoss reached hc hs, rfl⟩
  | laneReset taken =>
    refine ⟨_, ?_, rfl⟩
    split
    · exact hs
    · split
      · exact K.resetLine true hs
      · exact K.laneReset taken (by simpa using ‹¬s.sysRst = true›) (by simpa using ‹¬s.sysHold = true›) hs
  | pfwAssert => exact ⟨_, K.pfwRise hs, rfl⟩
  | pfwDeassert => exact ⟨_, K.pfwFall hc hs, rfl⟩
  | lineClockTick => exact ⟨_, K.tick hs, rfl⟩
  | idleTimerExpiry =>
    cases ht : s.session.timer with
    | stopped => exact ⟨s, hs, by simp only [Machine.exec, execIdleTimerExpiry, ht]⟩
    | held => exact ⟨s, hs, by simp only [Machine.exec, execIdleTimerExpiry, ht]⟩
    | running n => exact ⟨_, K.lapse n ht hs, by simp only [Machine.exec, execIdleTimerExpiry, ht]⟩
  | transactionDropped sp => exact ⟨_, K.lane sp .incomplete first same hs, rfl⟩
  | read sp a n => exact ⟨_, K.lane sp .read a.isLt (State.passesTo_serveBytes n) hs, rfl⟩
  | fastRead sp a n => exact ⟨_, K.lane sp .fastRead a.isLt (State.passesTo_serveBytes n) hs, rfl⟩
  | pageProgram sp a data =>
    exact ⟨_, K.lane sp .pageProgram a.isLt (fun x => x.passesTo_takeData data) hs, rfl⟩
  | sectorErase sp a => exact ⟨_, K.lane sp .sectorErase a.isLt same hs, rfl⟩
  | blockErase sp a => exact ⟨_, K.lane sp .blockErase a.isLt same hs, rfl⟩
  | chipErase sp => exact ⟨_, K.lane sp .chipErase first same hs, rfl⟩
  | writeEnable sp => exact ⟨_, K.lane sp .writeEnable first same hs, rfl⟩
  | writeDisable sp => exact ⟨_, K.lane sp .writeDisable first same hs, rfl⟩
  | readStatus sp n busyFor =>
    exact ⟨_, K.lane sp .readStatus first (fun x => State.passesTo_statusBytes n x busyFor) hs, rfl⟩
  | readId sp n => exact ⟨_, K.lane sp .readId first (State.passesTo_idBytes n) hs, rfl⟩
  | unrecognisedCommand sp b data =>
    refine ⟨_, ?_, rfl⟩
    split
    · exact K.lane sp _ first (State.passesTo_unknownBytes data) hs
    · exact hs
  | recordFraming offset data =>
    refine ⟨_, ?_, rfl⟩
    split
    · exact K.takeProgram _ _ ‹_› hs
    · exact hs
  | recordUnknownKind kind tag body =>
    refine ⟨_, ?_, rfl⟩
    split
    · exact K.takeFramed _ ‹_› hs
    · exact hs
  | sessionOpen tag body => exact record .sessionOpen tag body
  | resetSession tag body => exact record .resetSession tag body
  | mask tag body => exact record .mask tag body
  | retire tag body => exact record .retire tag body
  | geometry tag body => exact record .geometry tag body
  | format tag body => exact record .format tag body
  | plane tag body => exact record .plane tag body
  | frameOpen tag body => exact record .frameOpen tag body
  | zones tag body => exact record .zones tag body
  | frameClose tag body => exact record .frameClose tag body
  | frameAbandon tag body => exact record .frameAbandon tag body
  | rollback tag body => exact record .rollback tag body
  | watch tag body => exact record .watch tag body
  | commit tag body => exact record .commit tag body
  | park tag body => exact record .park tag body
  | scan tag body => exact record .scan tag body
  | keyStage tag body => exact record .keyStage tag body
  | keyMore tag body => exact record .keyMore tag body
  | keyStore tag body => exact record .keyStore tag body
  | keyErase tag body => exact record .keyErase tag body
  | keyUnstage tag body => exact record .keyUnstage tag body
  | region tag body => exact record .region tag body
  | closeOut tag body => exact record .closeOut tag body
  | solveTakeFrame => exact ⟨_, K.takeFrame hs, rfl⟩
  | computingEnd => exact ⟨_, K.endComputing hs, rfl⟩
  | publish => exact ⟨_, K.publishWaiting hs, rfl⟩
  | jobStart => exact ⟨_, K.startDue hs, rfl⟩
  | sequencerStepBegin => exact ⟨_, K.beginStep hc hs, rfl⟩
  | readStepComplete busy misread =>
    refine ⟨_, ?_, rfl⟩
    unfold State.withLayout
    split
    · dsimp only
      split
      · exact K.readDone _ _ busy misread ‹_› ‹_› hs
      · exact hs
    · exact hs
  | occupiedPeriodEnd =>
    refine ⟨_, ?_, rfl⟩
    unfold State.withLayout
    split
    · exact K.endOccupied _ ‹_› hs
    · exact hs
  | sysRstRelease => exact ⟨_, K.resetLine false hs, rfl⟩
  | lampFlashTimer => exact ⟨_, K.flashTimer hs, rfl⟩

end

end Sys2Proof.Machine
end

section
/-! What the Intake's owners, the Flash Sequencer, the end of a transaction and the start-up load can do: for each one relation or
one lemma that names every change, so that an invariant is proved by its cases. -/

namespace Sys2Proof.Machine

/-! ## The verdict on a record (R29 to R32) -/

/-- Every change the owner of a record can make, with the answer it gives; each case keeps the checks that were passed. -/
inductive State.Judged (s : State) : State → Result → Prop where
  | refused {r} (h : r ≠ .queued) : Judged s s r
  | session {n r} (h : r ≠ .queued) (opened : n.state = .opened) : Judged s { s with session := n } r
  | reset : Judged s (judgeResetSession s).1 .accepted
  | mask {r} (m : BitVec 16) (h : r ≠ .queued) : Judged s { s with conds := { s.conds with mask := m &&& maskable } } r
  | retire {c t} (h : s.conds.records = c :: t) : Judged s { s with conds := { s.conds with records := t } } .accepted
  | geometry {x y} (hx : 1 ≤ x ∧ x ≤ 128) (hy : 1 ≤ y ∧ y ≤ 72) (fresh : s.grid.exhausted = false) (free : s.framesFree = true)
      (unlocked : s.grid.lock = none) : Judged s (s.applyGeometry x y) .accepted
  | format {w sh r} (h : r ≠ .queued) (hw : w = 8 ∨ w = 6) (hsh : sh ≤ 3) (fresh : s.grid.exhausted = false) :
      Judged s { s with grid := ({ s.grid with width := w, shift := sh }).newGeneration } r
  | plane (p : Plane) (x : PlaneRecord) : Judged s { s with grid := s.grid.setPlane p x } .accepted
  | frameOpen {i f} (free : s.frameIn .free = some i) (none : s.anyFrame .filling = false) (filling : f.state = .filling)
      (kept : f.discard = false) (inside : s.grid.holdsRect f.rect = true) (slots : f.slots.length = f.rect.w * f.rect.h) :
      Judged s (s.setFrame i f) .accepted
  | zones {i slots r} (h : r ≠ .queued) (filling : s.frameIn .filling = some i)
      (same : slots.length = (s.frame i).slots.length) : Judged s (s.setFrame i { s.frame i with slots := slots }) r
  | frameClose {i} (n : Option Snapshot) (filling : s.frameIn .filling = some i) :
      Judged s (s.takeFrame.setFrame i { s.frame i with state := .queued, snapshot := n }) .accepted
  | frameAbandon {i} (filling : s.frameIn .filling = some i) : Judged s (s.setFrame i Frame.empty) .accepted
  | rollback (unlocked : s.grid.lock = none) (fresh : s.grid.exhausted = false) : Judged s s.popHistory .accepted
  | watch (i : Nat) {w : Watch} (h : w.count = 0) : Judged s { s with watches := s.watches.set i w } .accepted
  | staging {g r} (h : r ≠ .queued) (free : s.staging.state ≠ .held) (inside : g.slot < 16 ∨ g.slot = s.staging.slot) :
      Judged s { s with staging := g } r
  | job {j} (room : s.queueFull = false) (plain : j.kind ≠ .keyStore ∧ j.kind ≠ .keyErase) : Judged s (s.queueJob j) .queued
  | keyStore (tag : Byte) (room : s.queueFull = false) (complete : s.staging.state = .complete)
      (idle : (s.keyEntry s.staging.slot).state ≠ .pending)
      (untaken : s.classTaken s.staging.slot s.staging.cls = false) :
      Judged s (State.queueJob { s.setKey s.staging.slot ((s.keyEntry s.staging.slot).pend s.staging.cls false) with
          staging := { s.staging with state := .held } }
        { kind := .keyStore, tag := tag, slot := s.staging.slot, sector := 0 }) .queued
  | keyErase (tag : Byte) {slot} (room : s.queueFull = false) (inside : slot < 16)
      (idle : (s.keyEntry slot).state ≠ .pending) :
      Judged s (State.queueJob (s.setKey slot ((s.keyEntry slot).pend
          (if (s.keyEntry slot).state = .present then (s.keyEntry slot).cls else 0) true))
        { kind := .keyErase, tag := tag, slot := slot, sector := 0 }) .queued
  | closeOutIndex {n} (h : n ≤ 7) : Judged s { s with intake := { s.intake with closeOutIndex := n } } .precondition
  | closeOut (tag : Byte) (room : s.seq.waiting = []) :
      Judged s (State.queueJob { s with intake := { s.intake with closeOutIndex := 0 } } (plainJob .closeOut tag)) .queued

theorem writeSlots_length (vs : List Nat) (slots : List (Option Nat)) (off : Nat) :
    (writeSlots slots off vs).length = slots.length := by
  induction vs generalizing slots off with
  | nil => rfl
  | cons v t ih => simp only [writeSlots, ih, List.length_set]

theorem State.fillingWith_some {s : State} {tag : Byte} {i : Bool} (h : s.fillingWith tag = some i) :
    s.frameIn .filling = some i := by
  unfold State.fillingWith at h
  split at h
  · rename_i j hj
    split at h
    · rw [hj, h]
    · cases h
  · cases h

theorem State.failedPrecondition_le {s : State} {n : Nat} (h : s.failedPrecondition = some n) : n ≤ 7 := by
  obtain ⟨i, hi, rfl⟩ := Option.map_eq_some_iff.1 h
  have : i < s.preconditions.length := (List.findIdx?_eq_some_iff_getElem.1 hi).1
  simpa [State.preconditions] using this

theorem State.failedPrecondition_none {s : State} (h : s.failedPrecondition = none) : s.seq.waiting = [] := by
  rw [State.failedPrecondition_eq] at h
  by_contra hw
  simp [hw] at h

section
variable (s : State) (tag : Byte) (body : List Byte)

theorem judgeSessionOpen_judged : s.Judged (judgeSessionOpen body s).1 (judgeSessionOpen body s).2 := by
  unfold judgeSessionOpen
  dsimp only
  split
  · exact .session nofun rfl
  · exact .refused nofun

theorem judgeMask_judged : s.Judged (judgeMask body s).1 (judgeMask body s).2 := by
  unfold judgeMask
  exact .mask _ (by dsimp only; split <;> nofun)

theorem judgeRetire_judged : s.Judged (judgeRetire s).1 (judgeRetire s).2 := by
  unfold judgeRetire
  split
  · exact .refused nofun
  · exact .retire ‹_›

theorem judgeGeometry_judged : s.Judged (judgeGeometry body s).1 (judgeGeometry body s).2 := by
  rw [judgeGeometry_eq]
  split_ifs with closing range fresh frames locked
  case neg =>
    refine .geometry (by omega) (by omega) ?_ ?_ (not_not.1 locked)
    · rw [← Bool.not_eq_true, Grid.exhausted_iff]; exact fresh
    · rw [← Bool.not_eq_false, ← Bool.not_eq_true', State.not_framesFree_iff]; exact frames
  all_goals exact .refused nofun

theorem judgeFormat_judged : s.Judged (judgeFormat body s).1 (judgeFormat body s).2 := by
  unfold judgeFormat
  dsimp only
  split
  · exact .refused nofun
  split
  · exact .refused nofun
  split
  · exact .refused nofun
  rename_i fresh
  split
  · exact .refused nofun
  · exact .format (by dsimp only; split <;> nofun) (by omega) (by omega) (by simpa using fresh)

theorem judgePlane_judged : s.Judged (judgePlane body s).1 (judgePlane body s).2 := by
  unfold judgePlane
  split
  · exact .plane _ _
  · exact .refused nofun

theorem judgeFrameOpen_judged : s.Judged (judgeFrameOpen body s).1 (judgeFrameOpen body s).2 := by
  unfold judgeFrameOpen
  split
  · exact .refused nofun
  split
  · exact .refused nofun
  split_ifs with unset plane rect filling
  case neg =>
    split
    · exact .refused nofun
    · exact .frameOpen ‹_› (by simpa using filling) rfl rfl (by simpa using rect) (List.length_replicate ..)
  all_goals exact .refused nofun

theorem judgeZones_judged : s.Judged (judgeZones body s).1 (judgeZones body s).2 := by
  unfold judgeZones
  split
  · exact .refused nofun
  rename_i i filling
  dsimp only
  split
  · exact .refused nofun
  split
  · exact .refused nofun
  split
  · exact .refused nofun
  · exact .zones (by dsimp only; split <;> nofun) (State.fillingWith_some filling) (writeSlots_length _ _ _)

theorem judgeFrameClose_judged : s.Judged (judgeFrameClose body s).1 (judgeFrameClose body s).2 := by
  unfold judgeFrameClose
  split
  · exact .refused nofun
  · exact .frameClose _ (State.fillingWith_some ‹_›)

theorem judgeFrameAbandon_judged : s.Judged (judgeFrameAbandon body s).1 (judgeFrameAbandon body s).2 := by
  unfold judgeFrameAbandon
  split
  · exact .refused nofun
  · exact .frameAbandon (State.fillingWith_some ‹_›)

theorem judgeRollback_judged : s.Judged (judgeRollback s).1 (judgeRollback s).2 := by
  unfold judgeRollback
  split_ifs with closing empty locked fresh
  case neg => exact .rollback (by simpa using locked) (by simpa using fresh)
  all_goals exact .refused nofun

theorem judgeWatch_judged : s.Judged (judgeWatch body s).1 (judgeWatch body s).2 := by
  unfold judgeWatch
  split
  · split
    · exact .watch _ rfl
    · exact .refused nofun
  · exact .refused nofun

theorem judgeGridJob_judged {k : JobKind} (h : k ≠ .keyStore ∧ k ≠ .keyErase) :
    s.Judged (judgeGridJob k tag s).1 (judgeGridJob k tag s).2 := by
  unfold judgeGridJob
  split_ifs with closing unset full
  case neg => exact .job (by simpa using full) h
  all_goals exact .refused nofun

theorem judgeScan_judged : s.Judged (judgeScan tag s).1 (judgeScan tag s).2 := by
  unfold judgeScan
  split_ifs with closing full
  case neg => exact .job (by simpa using full) ⟨nofun, nofun⟩
  all_goals exact .refused nofun

theorem judgeKeyStage_judged : s.Judged (judgeKeyStage body s).1 (judgeKeyStage body s).2 := by
  unfold judgeKeyStage
  dsimp only
  split
  · exact .refused nofun
  rename_i idle
  split
  · exact .refused nofun
  split
  · exact .refused nofun
  · exact .staging (by dsimp only; split <;> nofun) (fun h => by rw [not_not.1 idle] at h; cases h)
      (.inl (show byteAt body 0 < 16 by omega))

theorem judgeKeyMore_judged : s.Judged (judgeKeyMore body s).1 (judgeKeyMore body s).2 := by
  unfold judgeKeyMore
  split
  · exact .refused nofun
  · rename_i filling
    exact .staging (by dsimp only; split <;> nofun) (fun h => by rw [not_not.1 filling] at h; cases h) (.inr rfl)

theorem judgeKeyUnstage_judged : s.Judged (judgeKeyUnstage s).1 (judgeKeyUnstage s).2 := by
  unfold judgeKeyUnstage
  split
  · exact .refused nofun
  · exact .staging nofun ‹_› (.inl (show 0 < 16 by decide))

theorem judgeKeyStore_judged : s.Judged (judgeKeyStore tag s).1 (judgeKeyStore tag s).2 := by
  unfold judgeKeyStore
  dsimp only
  split_ifs with closing incomplete locked pending taken full
  case neg => exact .keyStore tag (by simpa using full) (not_not.1 incomplete) pending (by simpa using taken)
  all_goals exact .refused nofun

theorem judgeKeyErase_judged : s.Judged (judgeKeyErase tag body s).1 (judgeKeyErase tag body s).2 := by
  unfold judgeKeyErase
  dsimp only
  split
  · exact .refused nofun
  split
  · exact .refused nofun
  split
  · exact .refused nofun
  split
  · exact .refused nofun
  split
  · exact .refused nofun
  rename_i pending
  split
  · exact .refused nofun
  · exact .keyErase tag (by simpa using ‹¬s.queueFull = true›) (by omega) pending

theorem judgeRegion_judged : s.Judged (judgeRegion tag body s).1 (judgeRegion tag body s).2 := by
  rw [judgeRegion_eq]
  split_ifs with closing range closed started full
  case neg => exact .job (by simpa [State.queueFull] using full) ⟨nofun, nofun⟩
  all_goals exact .refused nofun

theorem judgeCloseOut_judged : s.Judged (judgeCloseOut tag s).1 (judgeCloseOut tag s).2 := by
  unfold judgeCloseOut
  split
  · exact .refused nofun
  split
  · exact .closeOutIndex (State.failedPrecondition_le ‹_›)
  · exact .closeOut tag (State.failedPrecondition_none ‹_›)

theorem judgeKind_judged (k : Kind) : s.Judged (judgeKind k tag body s).1 (judgeKind k tag body s).2 := by
  cases k with
  | sessionOpen => exact judgeSessionOpen_judged s body
  | resetSession => exact .reset
  | mask => exact judgeMask_judged s body
  | retire => exact judgeRetire_judged s
  | geometry => exact judgeGeometry_judged s body
  | format => exact judgeFormat_judged s body
  | plane => exact judgePlane_judged s body
  | frameOpen => exact judgeFrameOpen_judged s body
  | zones => exact judgeZones_judged s body
  | frameClose => exact judgeFrameClose_judged s body
  | frameAbandon => exact judgeFrameAbandon_judged s body
  | rollback => exact judgeRollback_judged s
  | watch => exact judgeWatch_judged s body
  | commit => exact judgeGridJob_judged s tag (by decide)
  | park => exact judgeGridJob_judged s tag (by decide)
  | scan => exact judgeScan_judged s tag
  | keyStage => exact judgeKeyStage_judged s body
  | keyMore => exact judgeKeyMore_judged s body
  | keyStore => exact judgeKeyStore_judged s tag
  | keyErase => exact judgeKeyErase_judged s tag body
  | keyUnstage => exact judgeKeyUnstage_judged s
  | region => exact judgeRegion_judged s tag body
  | closeOut => exact judgeCloseOut_judged s tag

/-- A record, also one refused by the session state or for its length, is judged so. -/
theorem judgeRecord_judged (k : Kind) : s.Judged (judgeRecord k tag body s).1 (judgeRecord k tag body s).2 := by
  unfold judgeRecord
  split
  · rename_i r hr
    refine .refused (fun h => ?_)
    subst h
    revert hr
    unfold sessionRefusal
    split
    · split <;> simp
    · split <;> simp
    · split <;> simp
    · simp
  · split
    · exact .refused nofun
    · exact judgeKind_judged s tag body k

end

end Sys2Proof.Machine
end

section
/-! What a job's run can come to, how the waiting jobs start, and what the end of a transaction and the start-up load are made of. -/

namespace Sys2Proof.Machine

/-! ## A job's run (R124 to R139) -/

/-- The same job further on: what it took or built at its start and its commit record stand. -/
def Active.same (a b : Active) : Prop :=
  b.job = a.job ∧ b.data.grid = a.data.grid ∧ b.data.key = a.data.key ∧ b.data.record = a.data.record

/-- What the job in progress can bring about, one change after another, up to its end. -/
inductive State.Runs : State → State → Prop where
  | done (s) : Runs s s
  | goesOn {s u a b} (active : s.seq.active = some a) (same : a.same b) (run : Runs (s.withActive b) u) : Runs s u
  | ends {s u a b} (o : JobOutcome) (g : Nat) (active : s.seq.active = some a) (same : a.same b) (run : Runs (s.endJob b o g) u) :
      Runs s u
  | appends {s u a} (n : Nat) {r} (active : s.seq.active = some a) (record : a.data.record = some r)
      (run : Runs { s with latest := some { slot := n, record := r } } u) : Runs s u
  | raises {s u} (r : Report) (run : Runs (s.raise r) u) : Runs s u
  | tallies {s u} (x : Nat) (run : Runs { s with seq := { s.seq with tally := (tallyCorrection s.seq.tally x).1 } } u) : Runs s u
  | fills {s u} (b : List Byte) (run : Runs { s with seq := { s.seq with buffer := b } } u) : Runs s u
  | judgesKey {s u} (slot : Nat) (blocks : List (List Byte)) (run : Runs (s.judgeKey slot blocks) u) : Runs s u
  | scrubs {s u} (sector : Nat) (mode : s.mode = .commissioning) (room : s.queueFull = false)
      (run : Runs (s.queueJob { kind := .scrub, tag := 0, slot := 0, sector := sector }) u) : Runs s u
  | regions {s u} (d : List (Option ProfileHeader)) (n : Nat)
      (run : Runs { s with region := { s.region with directory := d, reason := n } } u) : Runs s u
  | flash {s u} (latch : Bool) (run : Runs { s with flash := { s.flash with op := none, latch := latch } } u) : Runs s u

/-- The job in hand is the one in progress, perhaps further on. -/
def State.holds (s : State) (a : Active) : Prop := ∃ a0, s.seq.active = some a0 ∧ a0.same a

theorem Active.same_refl (a : Active) : a.same a := ⟨rfl, rfl, rfl, rfl⟩

theorem State.Runs.trans {s u v : State} (h : State.Runs s u) (h' : State.Runs u v) : State.Runs s v := by
  induction h with
  | done => exact h'
  | ends o g active same _ ih => exact .ends o g active same (ih h')
  | goesOn active same _ ih => exact .goesOn active same (ih h')
  | appends n active record _ ih => exact .appends n active record (ih h')
  | raises r _ ih => exact .raises r (ih h')
  | tallies x _ ih => exact .tallies x (ih h')
  | fills b _ ih => exact .fills b (ih h')
  | judgesKey slot blocks _ ih => exact .judgesKey slot blocks (ih h')
  | scrubs sector mode room _ ih => exact .scrubs sector mode room (ih h')
  | regions d n _ ih => exact .regions d n (ih h')
  | flash latch _ ih => exact .flash latch (ih h')


section
variable {s : State} {l : Layout} {a : Active}

theorem State.runs_withActive {b : Active} (h : s.holds a) (hb : a.same b) : s.Runs (s.withActive b) := by
  obtain ⟨a0, h0, hj, hg, hk, hr⟩ := h
  obtain ⟨kj, kg, kk, kr⟩ := hb
  exact .goesOn h0 ⟨kj.trans hj, kg.trans hg, kk.trans hk, kr.trans hr⟩ (.done _)

theorem State.runs_endJob (o : JobOutcome) (g : Nat) (h : s.holds a) : s.Runs (s.endJob a o g) := by
  obtain ⟨a0, h0, ha⟩ := h
  exact .ends o g h0 ha (.done _)

theorem State.runs_failJob (sector : Nat) (h : s.holds a) : s.Runs (s.failJob a sector) := by
  obtain ⟨a0, h0, ha⟩ := h
  exact .raises _ (.ends _ _ ((s.raise_seq _).symm ▸ h0) ha (.done _))

theorem State.runs_probeSlotOfRing (l : Layout) (t : Nat) (h : s.holds a) : s.Runs (s.probeSlotOfRing l a t) :=
  State.runs_withActive h ⟨rfl, rfl, rfl, rfl⟩

theorem State.runs_beginRewrite (l : Layout) (rw : Rewrite) (rest : List Step) (h : s.holds a) :
    s.Runs (s.beginRewrite l a rw rest) := by
  have held : State.holds { s with seq := { s.seq with buffer := [] } } a := h
  exact .fills [] (State.runs_withActive held ⟨rfl, rfl, rfl, rfl⟩)

theorem State.runs_startAppend (l : Layout) (h : s.holds a) : s.Runs (s.startAppend l a) := by
  unfold State.startAppend
  split
  · split
    · exact State.runs_failJob _ h
    · exact State.runs_probeSlotOfRing l _ h
  · exact State.runs_probeSlotOfRing l _ h

theorem State.runs_appendDone (h : s.holds a) : s.Runs (s.appendDone a) := by
  unfold State.appendDone
  split
  · rename_i r hr
    obtain ⟨a0, h0, hj, hg, hk, hrec⟩ := h
    exact .appends a.data.target h0 (hrec ▸ hr) (State.runs_endJob _ _ ⟨a0, h0, hj, hg, hk, hrec⟩)
  · exact .done s

theorem State.runs_proceed (l : Layout) (rest : List Step) (h : s.holds a) : s.Runs (s.proceed l a rest) := by
  obtain ⟨-, e⟩ | ⟨-, -, e⟩ | ⟨-, -, -, e⟩ | ⟨-, -, -, e⟩ := s.proceed_cases l a rest <;> rw [e]
  · exact State.runs_withActive h ⟨rfl, rfl, rfl, rfl⟩
  · exact State.runs_appendDone h
  · exact State.runs_endJob _ _ h
  · exact State.runs_startAppend l h

theorem State.runs_judgeVerify (l : Layout) (w : SectorWrite) (bytes : List Byte) (rest : List Step) (h : s.holds a) :
    s.Runs (s.judgeVerify l a w bytes rest) := by
  unfold State.judgeVerify
  split
  · exact State.runs_proceed l _ h
  split
  · exact State.runs_failJob _ h
  split
  · exact State.runs_proceed l _ h
  · exact State.runs_beginRewrite l _ _ h

theorem State.runs_planRewrite (l : Layout) (rw : Rewrite) (rest : List Step) (h : s.holds a) :
    s.Runs (s.planRewrite l a rw rest) := by
  unfold State.planRewrite
  dsimp only
  split
  · exact State.runs_endJob _ _ h
  · exact .fills _ (State.runs_proceed (s := { s with seq := { s.seq with buffer := _ } }) l _ h)

theorem State.runs_judgeTarget (l : Layout) (bytes : List Byte) (h : s.holds a) : s.Runs (s.judgeTarget l a bytes) := by
  unfold State.judgeTarget
  split
  · exact State.runs_proceed l _ h
  · exact State.runs_probeSlotOfRing l _ h

theorem State.runs_judgeSlotRead (l : Layout) (bytes : List Byte) (h : s.holds a) : s.Runs (s.judgeSlotRead l a bytes) := by
  unfold State.judgeSlotRead
  dsimp only
  split
  · exact State.runs_proceed l _ h
  split
  · exact State.runs_failJob _ h
  · exact State.runs_beginRewrite l _ _ h

theorem State.runs_refuseProfile (n : Nat) (h : s.holds a) : s.Runs (s.refuseProfile a n) :=
  .regions s.region.directory n
    (State.runs_endJob (s := { s with region := { s.region with directory := s.region.directory, reason := n } }) _ _ h)

theorem State.runs_setDirectory (s : State) (k : Nat) (x : Option ProfileHeader) : s.Runs (s.setDirectory k x) :=
  .regions _ s.region.reason (.done _)

theorem State.runs_judgeHeader (l : Layout) (bytes : List Byte) (h : s.holds a) : s.Runs (s.judgeHeader l a bytes) := by
  unfold State.judgeHeader
  have held : (s.setDirectory a.job.slot (profileHeader bytes)).holds a := h
  refine (s.runs_setDirectory a.job.slot (profileHeader bytes)).trans ?_
  dsimp only
  split
  · exact State.runs_refuseProfile 1 held
  split
  · exact State.runs_refuseProfile 2 held
  · exact State.runs_startAppend l held

/-! ### SCAN's findings -/

theorem State.runs_raiseAll (rs : List Report) (s : State) : s.Runs (s.raiseAll rs) := by
  induction rs generalizing s with
  | nil => exact .done s
  | cons r t ih => exact .raises r (ih _)

theorem State.runs_tallyAll (xs : List Nat) (s : State) : s.Runs (s.tallyAll xs) := by
  induction xs generalizing s with
  | nil => exact .done s
  | cons x t ih =>
    refine .tallies x ?_
    unfold State.tallyAll
    dsimp only
    split
    · exact .raises _ (ih _)
    · exact ih _

theorem State.runs_queueScrub (s : State) (sector : Nat) : s.Runs (s.queueScrub sector) := by
  unfold State.queueScrub
  split
  · rename_i h
    exact .scrubs sector h.1 h.2.2 (.done _)
  · exact .done s

theorem State.runs_reportSector (s : State) (sector : Nat) (f : Findings) (scrub : Bool) :
    s.Runs (s.reportSector sector f scrub) := by
  unfold State.reportSector
  dsimp only
  split
  · exact (State.runs_raiseAll _ s).trans (State.runs_queueScrub _ _)
  · exact State.runs_raiseAll _ s

theorem State.raiseAll_active (s : State) (rs : List Report) : (s.raiseAll rs).seq.active = s.seq.active := by
  rw [State.raiseAll_eq]

theorem State.tallyAll_active (xs : List Nat) (s : State) : (s.tallyAll xs).seq.active = s.seq.active := by
  induction xs generalizing s with
  | nil => rfl
  | cons x t ih =>
    unfold State.tallyAll
    dsimp only
    rw [ih]
    split <;> simp

theorem State.reportSector_active (s : State) (sector : Nat) (f : Findings) (scrub : Bool) :
    (s.reportSector sector f scrub).seq.active = s.seq.active := by
  unfold State.reportSector State.queueScrub
  dsimp only
  split
  · split <;> simp [State.raiseAll_active]
  · exact s.raiseAll_active _

theorem State.damageKey_active (s : State) (slot : Nat) (e : KeyEntry) : (s.damageKey slot e).seq.active = s.seq.active := by
  simp [State.damageKey]

theorem State.judgeKey_active (s : State) (slot : Nat) (blocks : List (List Byte)) :
    (s.judgeKey slot blocks).seq.active = s.seq.active := by
  unfold State.judgeKey
  dsimp only
  split
  · rfl
  split
  · rfl
  split
  · exact s.damageKey_active _ _
  · split
    · exact s.damageKey_active _ _
    · rfl

/-- What holds of the job in hand does not change while the job in progress stands. -/
theorem State.holds_of_active {u : State} (h : s.holds a) (e : u.seq.active = s.seq.active) : u.holds a := by
  obtain ⟨a0, h0, ha⟩ := h
  exact ⟨a0, e.trans h0, ha⟩

theorem State.runs_scannedSlot (l : Layout) (slot : Nat) (bytes : List Byte) (rest : List Step) (h : s.holds a) :
    s.Runs (s.scannedSlot l a slot bytes rest) := by
  unfold State.scannedSlot
  dsimp only
  generalize correctionsIn _ _ = charged
  refine (State.runs_tallyAll charged s).trans (.judgesKey slot (blocksOf bytes) ?_)
  have held := State.holds_of_active h
    ((State.judgeKey_active (s.tallyAll charged) slot (blocksOf bytes)).trans (s.tallyAll_active charged))
  generalize (s.tallyAll charged).judgeKey slot (blocksOf bytes) = x at held ⊢
  split
  · exact (x.runs_reportSector _ _ _).trans (State.runs_proceed l rest (State.holds_of_active held (x.reportSector_active _ _ _)))
  · exact State.runs_proceed l rest held

theorem State.runs_scannedRing (l : Layout) (i : Nat) (bytes : List Byte) (rest : List Step) (h : s.holds a) :
    s.Runs (s.scannedRing l a i bytes rest) := by
  unfold State.scannedRing
  dsimp only
  generalize correctionsIn _ _ = charged
  have held := State.holds_of_active h (s.tallyAll_active charged)
  refine (State.runs_tallyAll charged s).trans ?_
  generalize s.tallyAll charged = x at held ⊢
  exact (x.runs_reportSector _ _ _).trans (State.runs_proceed l rest (State.holds_of_active held (x.reportSector_active _ _ _)))

theorem State.runs_scannedPanel (l : Layout) (i : Nat) (bytes : List Byte) (rest : List Step) (h : s.holds a) :
    s.Runs (s.scannedPanel l a i bytes rest) := by
  unfold State.scannedPanel
  dsimp only
  generalize List.map (panelCharge l (l.panel + 4096 * i)) _ = charged
  generalize Findings.add _ _ _ = f
  refine (State.runs_tallyAll charged s).trans ((State.runs_reportSector _ (l.panel + 4096 * i) f true).trans ?_)
  have held := State.holds_of_active h
    ((State.reportSector_active (s.tallyAll charged) (l.panel + 4096 * i) f true).trans (s.tallyAll_active charged))
  generalize (s.tallyAll charged).reportSector (l.panel + 4096 * i) f true = x at held ⊢
  split
  · exact (x.runs_reportSector _ _ _).trans (State.runs_proceed l rest (State.holds_of_active held (x.reportSector_active _ _ _)))
  · exact State.runs_proceed l rest held

/-! ### A read step, and the end of an occupied period -/

theorem State.runs_useBytes (l : Layout) (u : Use) (bytes : List Byte) (rest : List Step) (h : s.holds a) :
    s.Runs (s.useBytes l a u bytes rest) := by
  have filled : ∀ b, State.holds { s with seq := { s.seq with buffer := b } } a := fun _ => h
  cases u with
  | loadPage => exact .fills _ (State.runs_proceed l rest (filled _))
  | aside append => exact State.runs_proceed (a := a.keepAside append bytes) l rest h
  | plan toBuffer rw =>
    cases toBuffer with
    | true => exact .fills _ (State.runs_planRewrite l rw rest (filled _))
    | false => exact State.runs_planRewrite (a := a.keepAside true bytes) l rw rest h
  | verify w => exact State.runs_judgeVerify l w bytes rest h
  | probeTarget => exact State.runs_judgeTarget l bytes h
  | probeSlot => exact State.runs_judgeSlotRead l bytes h
  | header => exact State.runs_judgeHeader l bytes h
  | scanSlot k => exact State.runs_scannedSlot l k bytes rest h
  | scanRing i => exact State.runs_scannedRing l i bytes rest h
  | scanPanel i => exact State.runs_scannedPanel l i bytes rest h

/-- All that a completed read step brings about: a run of its job, behind which a waiting job may start. -/
theorem State.readDone_runs (l : Layout) (busy : Bool) (misread : List Host.Cell) (h : s.seq.active = some a) :
    ∃ u, s.Runs u ∧ (s.readDone l a busy misread = u ∨ s.readDone l a busy misread = u.startDue) := by
  have held : s.holds a := ⟨a, h, a.same_refl⟩
  unfold State.readDone
  split
  · split
    · exact ⟨_, State.runs_withActive (b := { a with phase := .waiting }) held ⟨rfl, rfl, rfl, rfl⟩, .inl rfl⟩
    · exact ⟨_, .flash s.flash.latch (State.runs_withActive (a := a) (b := { a with phase := .ready }) held ⟨rfl, rfl, rfl, rfl⟩),
        .inl rfl⟩
  · exact ⟨_, State.runs_useBytes l _ _ _ held, .inr rfl⟩
  · exact ⟨s, .done s, .inl rfl⟩

/-- All that the end of an occupied period brings about. -/
theorem State.endOccupied_runs (s : State) (l : Layout) :
    s.endOccupied l = s ∨ ∃ u, s.Runs u ∧ s.endOccupied l = u.startDue := by
  unfold State.endOccupied
  split
  · exact .inl rfl
  rename_i a ha
  split
  · exact .inr ⟨_, .flash s.shadow (State.runs_proceed (a := a) l _ ⟨a, ha, a.same_refl⟩), rfl⟩
  · exact .inl rfl

end

/-! ## The waiting jobs start (R122) -/

/-- A job begun: COMMIT_GRID and PARK hold the grid lock (R46), and a KEY_STORE has built its entry (R162). -/
def State.begun (s : State) (j : Job) (d : JobData) : State :=
  (if j.kind = .commitGrid ∨ j.kind = .park then s.lockGrid j.kind else s).withActive (freshJob j d [])

/-- What a job holds at its start: no commit record yet, and a KEY_STORE its entry of the staged class. -/
def JobData.fresh (d : JobData) (s : State) (j : Job) : Prop :=
  d.record = none ∧ (j.kind = .keyStore → ∃ bytes, d.key = some (s.builtKey, bytes))

/-- A report to a state with another job in progress. -/
theorem State.raise_withActive (s : State) (a : Active) (r : Report) : (s.withActive a).raise r = (s.raise r).withActive a := by
  show State.raise { s with seq := _ } r = _
  unfold State.raise State.withActive
  dsimp only [State.newRecord]
  split
  · rfl
  · split <;> rfl

/-- An append that begins does not ask which job was in progress before. -/
theorem State.startAppend_withActive (s : State) (l : Layout) (a b : Active) :
    (s.withActive b).startAppend l a = s.startAppend l a := by
  unfold State.startAppend
  have e : (s.withActive b).latest = s.latest := rfl
  rw [e]
  split
  · split
    · unfold State.failJob
      rw [State.raise_withActive]
      rfl
    · rfl
  · rfl

/-- A job at its start gets its steps. -/
theorem State.runs_steps (s : State) (j : Job) (d : JobData) (todo : List Step) :
    (s.withActive (freshJob j d [])).Runs (s.withActive (freshJob j d todo)) :=
  State.runs_withActive (s := s.withActive (freshJob j d [])) ⟨_, rfl, Active.same_refl _⟩ ⟨rfl, rfl, rfl, rfl⟩

/-- A job at its start begins a rewrite. -/
theorem State.runs_rewrite (s : State) (l : Layout) (j : Job) (d : JobData) (rw : Rewrite) :
    (s.withActive (freshJob j d [])).Runs (s.beginRewrite l (freshJob j d []) rw []) :=
  State.runs_beginRewrite (s := s.withActive (freshJob j d [])) l rw [] ⟨_, rfl, Active.same_refl _⟩

/-- A job starts by its beginning and a run from there (R122). -/
theorem State.startJob_runs (s : State) (l : Layout) (j : Job) :
    ∃ d, d.fresh s j ∧ (s.begun j d).Runs (s.startJob l j) := by
  unfold State.startJob State.begun
  cases hk : j.kind <;> simp only [reduceCtorEq, or_self, or_true, true_or, if_true, if_false]
  case commitGrid =>
    exact ⟨{ JobData.empty with grid := some s.grid, poisoned := s.grid.poisonedCount },
      ⟨rfl, fun h => nomatch hk.symm.trans h⟩, State.runs_steps _ _ _ _⟩
  case park =>
    exact ⟨{ JobData.empty with grid := some s.grid, imageGen := s.nextRingGen },
      ⟨rfl, fun h => nomatch hk.symm.trans h⟩, State.runs_steps _ _ _ _⟩
  case keyStore =>
    refine ⟨{ JobData.empty with key := some (s.builtKey, keySlotBytes (keySlotData j.slot s.builtKey s.staging.payload)) },
      ⟨rfl, fun _ => ⟨_, rfl⟩⟩, ?_⟩
    unfold State.startKeyStore
    dsimp only
    split
    · exact State.runs_steps _ _ _ _
    · exact State.runs_rewrite _ _ _ _ _
  case closeOut =>
    refine ⟨JobData.empty, ⟨rfl, fun h => nomatch hk.symm.trans h⟩, ?_⟩
    rw [← s.startAppend_withActive l _ (freshJob j JobData.empty [])]
    exact State.runs_startAppend l ⟨_, rfl, Active.same_refl _⟩
  case regionSelect | scan =>
    exact ⟨JobData.empty, ⟨rfl, fun h => nomatch hk.symm.trans h⟩, State.runs_steps _ _ _ _⟩
  case keyErase | scrub =>
    exact ⟨JobData.empty, ⟨rfl, fun h => nomatch hk.symm.trans h⟩, State.runs_rewrite _ _ _ _ _⟩

theorem State.startAppend_waiting (s : State) (l : Layout) (a : Active) :
    (s.startAppend l a).seq.waiting = s.seq.waiting ∧ (s.startAppend l a).layout = s.layout := by
  unfold State.startAppend
  split
  · split
    · unfold State.failJob
      obtain ⟨-, hw, -, -, -, -, hl⟩ := (s.raise { cls := .jobFailed, address := some l.ring }).endJob_fields a .verifyFailed 0
      rw [hw, hl]; simp
    · exact ⟨rfl, rfl⟩
  · exact ⟨rfl, rfl⟩

/-- A job's start leaves the jobs that wait behind it. -/
theorem State.startJob_waiting (s : State) (l : Layout) (j : Job) :
    (s.startJob l j).seq.waiting = s.seq.waiting ∧ (s.startJob l j).layout = s.layout := by
  unfold State.startJob State.startKeyStore
  cases j.kind with
  | closeOut => exact s.startAppend_waiting l _
  | keyStore => dsimp only; split <;> exact ⟨rfl, rfl⟩
  | _ => exact ⟨rfl, rfl⟩

/-- A predicate that a job's beginning and its run keep is kept as the waiting jobs start (R122). -/
theorem State.startDue_keeps {P : State → Prop}
    (begins : ∀ (s : State) j t d, s.seq.active = none → s.seq.waiting = j :: t → d.fresh s j → P s →
      P (State.begun { s with seq := { s.seq with waiting := t } } j d))
    (runs : ∀ s u, s.Runs u → P s → P u) {s : State} (hs : P s) : P s.startDue := by
  unfold State.startDue
  split
  · rename_i l _
    have starts : ∀ (ws : List Job) (x : State), x.seq.waiting = ws → P x → P (x.startFrom l ws) := by
      intro ws
      induction ws with
      | nil => exact fun x _ hx => hx
      | cons j t ih =>
        intro x hw hx
        unfold State.startFrom
        split
        · rename_i idle
          obtain ⟨d, fresh, run⟩ := State.startJob_runs { x with seq := { x.seq with waiting := t } } l j
          exact ih _ (State.startJob_waiting _ l j).1 (runs _ _ run (begins x j t d (by simpa using idle) hw fresh hx))
        · exact hx
    exact starts _ s rfl hs
  · exact hs

/-- Once the waiting jobs have started none waits while none is in progress, given a layout (R122). -/
theorem State.startDue_settled (s : State) (h : s.layout = none → s.seq.waiting = []) :
    s.startDue.seq.active = none → s.startDue.seq.waiting = [] := by
  unfold State.startDue
  split
  · rename_i l _
    have starts : ∀ (ws : List Job) (x : State), x.seq.waiting = ws →
        (x.startFrom l ws).seq.active = none → (x.startFrom l ws).seq.waiting = [] := by
      intro ws
      induction ws with
      | nil => exact fun x hw _ => hw
      | cons j t ih =>
        intro x hw
        unfold State.startFrom
        split
        · exact ih _ (State.startJob_waiting _ l j).1
        · rename_i busy
          intro idle
          simp [idle] at busy
    exact starts _ s rfl
  · exact fun _ => h ‹_›

/-! ## A transaction ends (R1) -/

section
variable {P : State → Prop} {s : State} {t : Txn}

/-- The end of a transaction: what it counts, reports and clears, the flash's taking of a forwarded command, and an aperture
program's record. -/
theorem State.endTxn_keeps
    (charge : ∀ s w f, f ∈ [CounterSet.addRead, CounterSet.addWrite, CounterSet.addWithheld] → P s → P (s.charge w f))
    (watches : ∀ s, P s → P (s.countWatches t)) (raise : ∀ s r, P s → P (s.raise r))
    (shadow : ∀ (s : State) b, P s → P { s with shadow := b }) (forget : ∀ s a, P s → P (s.forgetProfile a))
    (takes : t.treatment = .forwarded → ∀ s, P s → P (s.flashTakes t))
    (record : t.treatment = .record → ∀ s, P s → P (s.takeProgram (t.addr % 256) t.data)) (hs : P s) : P (s.endTxn t) := by
  have read : P (s.endRead t) := by
    unfold State.endRead
    have counted := watches _ (charge s (s.windowOf t.addr) CounterSet.addRead (by simp) hs)
    dsimp only
    split
    · exact raise _ _ counted
    · exact counted
  have write : t.treatment = .forwarded → P (s.endForwardedWrite t) := by
    intro forwarded
    unfold State.endForwardedWrite
    have counted := watches _ (charge _ (s.windowOf t.judgedAddr) CounterSet.addWrite (by simp)
      (shadow _ false (takes forwarded s hs)))
    dsimp only
    split
    · exact counted
    · exact forget _ _ counted
  have withheld : ∀ w x, P (s.endWithheld t w x) := fun w x =>
    raise _ _ (watches _ (charge s w CounterSet.addWithheld (by simp) hs))
  have program : t.treatment = .record → P (s.endRecord t) := fun h =>
    record h _ (watches _ (charge s .aperture CounterSet.addWrite (by simp) hs))
  unfold State.endTxn
  split
  case h_1 | h_8 | h_9 => exact hs
  case h_2 | h_3 => exact read
  case h_4 h | h_6 h => exact shadow _ _ (takes h s hs)
  case h_5 | h_7 => exact shadow _ _ hs
  case h_10 | h_12 => exact raise _ _ hs
  case h_11 h => exact takes h s hs
  case h_13 => exact write ‹_›
  case h_14 => exact withheld _ _
  case h_15 => exact program ‹_›
  case h_16 => exact hs

/-- U_CS deasserts: an ignored transaction is gone; of a served one the panel read hold is released, and then it ends. -/
theorem State.deselect_keeps (ht : s.upstream = some t) (ignored : t.ignored = true → P { s with upstream := none })
    (ends : t.ignored = false → P (State.endTxn (State.releasePanel { s with upstream := none }) t)) : P s.deselect := by
  unfold State.deselect
  simp only [ht]
  split
  · exact ignored ‹_›
  · exact ends (by simpa using ‹¬t.ignored = true›)

/-- With no transaction in progress there is none to end. -/
theorem State.deselect_idle (h : s.upstream = none) : s.deselect = s := by
  simp only [State.deselect, h]

/-! ## The taking of a record (R28 to R33) -/

theorem State.takeFramed_keeps (note : ∀ (s : State) tag r, P s → P (s.noteRecord tag r))
    (record : ∀ s k tag body, P s → P (s.takeRecord k tag body)) (f : Framed) (hs : P s) : P (s.takeFramed f) := by
  unfold State.takeFramed
  split
  · exact record _ _ _ _ hs
  · exact note _ _ _ hs

theorem State.takeProgram_keeps (note : ∀ (s : State) tag r, P s → P (s.noteRecord tag r))
    (draw : ∀ s : State, P s → P { s with draws := s.draws + 1 })
    (record : ∀ s k tag body, P s → P (s.takeRecord k tag body)) (offset : Nat) (data : List Byte) (hs : P s) :
    P (s.takeProgram offset data) := by
  unfold State.takeProgram
  split
  · exact State.takeFramed_keeps note record _ hs
  · exact note _ _ _ hs
  · exact note _ _ _ (draw _ hs)

/-- A record taken is judged, noted, and behind QUEUED a job that is due starts. -/
theorem State.takeRecord_keeps {k : Kind} {tag : Byte} {body : List Byte} (judged : ∀ u r, s.Judged u r → P u)
    (note : ∀ (s : State) tag r, P s → P (s.noteRecord tag r)) (due : ∀ s : State, P s → P s.startDue) :
    P (s.takeRecord k tag body) := by
  have noted := note _ tag (judgeRecord k tag body s).2 (judged _ _ (judgeRecord_judged s tag body k))
  unfold State.takeRecord State.concludeRecord
  split
  · exact due _ noted
  · exact noted

/-! ## The start-up load (R17) -/

section
variable {L : State → Prop} {i : PowerOnInput} (rise : ∀ x, L x → L x.pfwRise) (raise : ∀ x r, L x → L (x.raise r))
  (grid : ∀ x l m, L x → L (x.loadGrid l m)) (key : ∀ x slot block, L x → L (x.loadKey slot block))
  (region : ∀ x l m, L x → L (x.loadRegion l m)) (release : ∀ x b, L x → L (x.releaseHold b))

include rise in
theorem State.pfwAt_keeps (n : Nat) (x : State) (hx : L x) : L (x.pfwAt i n) := by
  unfold State.pfwAt
  split
  · exact rise x hx
  · exact hx

include rise raise grid key region release in
/-- With a valid descriptor the load keeps `L` step by step; what the first SCAN makes of it is `P`. -/
theorem State.powerOn_keeps_valid {l : Layout}
    (valid : descriptorLayout (Memory.read (Memory.setAll s.flash.cells i.misread) descriptorBase 64) = some l)
    (layout : L { s.powerUp i.lineMode with
      layout := some l, latest := latestOf (ringSlots (Memory.setAll s.flash.cells i.misread) l)
      mode := decideMode i.lineMode (latestOf (ringSlots (Memory.setAll s.flash.cells i.misread) l)) })
    (scan : ∀ x, L x → P (x.queueJob (plainJob .scan 0)).startDue) : P (s.powerOn i) := by
  have at_ : ∀ n x, L x → L (x.pfwAt i n) := State.pfwAt_keeps rise
  have keys : ∀ l m (ks : List Nat) x, L x → L (x.loadKeys l m ks) := by
    intro l m ks
    induction ks with
    | nil => exact fun _ hx => hx
    | cons k t ih => exact fun x hx => ih _ (key x _ _ hx)
  unfold State.powerOn
  simp only [valid]
  unfold State.loadRest
  dsimp only
  refine scan _ (at_ 9 _ (release _ _ (at_ 8 _ (region _ _ _ (at_ 7 _ (keys _ _ _ _ (at_ 6 _ (grid _ _ _ (at_ 5 _
    (at_ 4 _ (at_ 3 _ ?_)))))))))))
  unfold State.noteDescriptor
  split
  · exact raise _ _ (at_ 2 _ (at_ 1 _ layout))
  · exact at_ 2 _ (at_ 1 _ layout)

include rise raise release in
/-- With an invalid descriptor the load ends in BYPASS. -/
theorem State.powerOn_keeps_invalid
    (invalid : descriptorLayout (Memory.read (Memory.setAll s.flash.cells i.misread) descriptorBase 64) = none)
    (up : L (s.powerUp i.lineMode)) : L (s.powerOn i) := by
  have at_ : ∀ n x, L x → L (x.pfwAt i n) := State.pfwAt_keeps rise
  unfold State.powerOn
  simp only [invalid]
  exact release _ _ (raise _ _ (at_ 2 _ (at_ 1 _ up)))

end

/-- The load keeps `L` step by step; what its end makes of it is `P`. -/
theorem State.powerOn_keeps {L : State → Prop} {i : PowerOnInput}
    (up : L (s.powerUp i.lineMode))
    (layout : ∀ l latest, descriptorLayout (Memory.read (Memory.setAll s.flash.cells i.misread) descriptorBase 64) = some l →
      latest = latestOf (ringSlots (Memory.setAll s.flash.cells i.misread) l) →
      L { s.powerUp i.lineMode with layout := some l, latest := latest, mode := decideMode i.lineMode latest })
    (rise : ∀ x, L x → L x.pfwRise) (raise : ∀ x r, L x → L (x.raise r)) (grid : ∀ x l m, L x → L (x.loadGrid l m))
    (key : ∀ x slot block, L x → L (x.loadKey slot block)) (region : ∀ x l m, L x → L (x.loadRegion l m))
    (release : ∀ x b, L x → L (x.releaseHold b)) (bypass : ∀ x, L x → P x)
    (scan : ∀ x, L x → P (x.queueJob (plainJob .scan 0)).startDue) : P (s.powerOn i) := by
  cases valid : descriptorLayout (Memory.read (Memory.setAll s.flash.cells i.misread) descriptorBase 64) with
  | none => exact bypass _ (State.powerOn_keeps_invalid rise raise release valid up)
  | some l => exact State.powerOn_keeps_valid rise raise grid key region release valid (layout l _ valid rfl) scan

end

end Sys2Proof.Machine
end

section
/-! What the inner blocks leave alone, and the statements O1, O2, O4 and O6. -/

namespace Sys2Proof.Machine

/-! ## The engine's endings -/

/-- The end of computing: nothing, the discard of the frame, or PUBLISH_WAIT with its results (R77). -/
theorem State.endComputing_cases (s : State) :
    s.endComputing = s ∨ ∃ i, s.engine.state = .computing ∧ s.frameIn .solving = some i ∧
      ((((s.frame i).discard || s.grid.exhausted) = true ∧ s.endComputing = (s.discardFrame i).takeFrame) ∨
        (((s.frame i).discard || s.grid.exhausted) = false ∧ s.endComputing = State.publishWaiting { s with
          engine := { state := .publishWait, results := (solveFrame (s.frame i)).1,
                      largest := (solveFrame (s.frame i)).2 } })) := by
  unfold State.endComputing
  split
  · rename_i computing
    split
    · rename_i i hi
      refine .inr ⟨i, computing, hi, ?_⟩
      split
      · exact .inl ⟨‹_›, rfl⟩
      · exact .inr ⟨eq_false_of_ne_true ‹_›, rfl⟩
    · exact .inl rfl
  · exact .inl rfl

/-- A frame that waits to publish and has the discard mark is discarded; else nothing happens (R85). -/
theorem State.discardWaiting_cases (s : State) :
    s.discardWaiting = s ∨ ∃ i, s.engine.state = .publishWait ∧ s.frameIn .solving = some i ∧ (s.frame i).discard = true ∧
      s.discardWaiting = s.discardFrame i := by
  unfold State.discardWaiting
  split
  · rename_i waits
    split
    · rename_i i hi
      split
      · exact .inr ⟨i, waits, hi, ‹_›, rfl⟩
      · exact .inl rfl
    · exact .inl rfl
  · exact .inl rfl

/-! ## The outer part of the state -/

/-- The outer part: the lines, the lane, the layout, the flash's bytes and the queue of commands. The Intake's owners, the
Solve Engine and a job between its steps change none of it. -/
def State.outer (s : State) : State :=
  { State.reset with
    sysHold := s.sysHold, sysRst := s.sysRst, pfw := s.pfw, lineMode := s.lineMode, attn := s.attn, lamp := s.lamp
    mode := s.mode, layout := s.layout, upstream := s.upstream, served := s.served, shadow := s.shadow
    flash := { cells := s.flash.cells, latch := false, op := none }, pending := s.pending }

section
variable {s u : State} (h : u.outer = s.outer)
include h

theorem State.outer_mode : u.mode = s.mode := (congrArg (fun x : State => x.mode) h :)
theorem State.outer_layout : u.layout = s.layout := (congrArg (fun x : State => x.layout) h :)
theorem State.outer_lamp : u.lamp = s.lamp := (congrArg (fun x : State => x.lamp) h :)
theorem State.outer_upstream : u.upstream = s.upstream := (congrArg (fun x : State => x.upstream) h :)
theorem State.outer_cells : u.flash.cells = s.flash.cells := (congrArg (fun x : State => x.flash.cells) h :)
theorem State.outer_pending : u.pending = s.pending := (congrArg (fun x : State => x.pending) h :)

end

theorem State.outer_raise (s : State) (r : Report) : (s.raise r).outer = s.outer := by
  rw [State.raise_eq]; rfl

theorem State.outer_setFrame (s : State) (i : Bool) (f : Frame) : (s.setFrame i f).outer = s.outer := by
  cases i <;> rfl

theorem State.outer_takeFrame (s : State) : s.takeFrame.outer = s.outer := by
  rw [State.takeFrame_eq]; rfl

theorem State.outer_discardFrame (s : State) (i : Bool) : (s.discardFrame i).outer = s.outer := by
  rw [State.discardFrame_eq]; rfl

theorem State.outer_publishFrame (s : State) (i : Bool) : (s.publishFrame i).outer = s.outer := by
  rw [State.publishFrame_eq]; rfl

theorem State.outer_publishWaiting (s : State) : s.publishWaiting.outer = s.outer := by
  obtain e | ⟨i, -, -, -, ⟨-, e⟩ | ⟨-, e⟩⟩ := s.publishWaiting_cases <;> rw [e]
  · rw [State.outer_takeFrame, State.outer_discardFrame]
  · rw [State.outer_takeFrame, State.outer_publishFrame]

theorem State.outer_unlock (s : State) : s.unlock.outer = s.outer := State.outer_publishWaiting _

theorem State.outer_releasePanel (s : State) : s.releasePanel.outer = s.outer := by
  unfold State.releasePanel
  split
  · exact State.outer_publishWaiting _
  · rfl

theorem State.outer_damageKey (s : State) (slot : Nat) (e : KeyEntry) : (s.damageKey slot e).outer = s.outer :=
  State.outer_raise _ _

theorem State.outer_endJob (s : State) (a : Active) (o : JobOutcome) (g : Nat) : (s.endJob a o g).outer = s.outer := by
  unfold State.endJob State.endActions
  split
  · exact State.outer_unlock _
  · split <;> exact State.outer_unlock _
  · split
    · rfl
    · exact State.outer_damageKey _ _ _
  · split
    · rfl
    · exact State.outer_damageKey _ _ _
  · split <;> rfl
  · split <;> rfl
  · rfl
  · rfl

theorem State.outer_judgeKey (s : State) (slot : Nat) (blocks : List (List Byte)) : (s.judgeKey slot blocks).outer = s.outer := by
  unfold State.judgeKey
  dsimp only
  split
  · rfl
  split
  · rfl
  split
  · exact State.outer_damageKey _ _ _
  · split
    · exact State.outer_damageKey _ _ _
    · rfl

theorem State.Runs.outer {s u : State} (h : s.Runs u) : u.outer = s.outer := by
  induction h with
  | done => rfl
  | goesOn _ _ _ ih => exact ih
  | ends o g _ _ _ ih => exact ih.trans (State.outer_endJob _ _ _ _)
  | appends _ _ _ _ ih => exact ih
  | raises r _ ih => exact ih.trans (State.outer_raise _ r)
  | tallies _ _ ih => exact ih
  | fills _ _ ih => exact ih
  | judgesKey slot blocks _ ih => exact ih.trans (State.outer_judgeKey _ slot blocks)
  | scrubs _ _ _ _ ih => exact ih
  | regions _ _ _ ih => exact ih
  | flash _ _ ih => exact ih

theorem State.outer_begun (s : State) (j : Job) (d : JobData) : (s.begun j d).outer = s.outer := by
  unfold State.begun
  split <;> rfl

theorem State.outer_startDue (s : State) : s.startDue.outer = s.outer :=
  State.startDue_keeps (P := fun x => x.outer = s.outer)
    (fun _ j _ d _ _ _ h => (State.outer_begun _ j d).trans h) (fun _ _ run h => run.outer.trans h) rfl

theorem State.outer_readDone {s : State} (l : Layout) {a : Active} (busy : Bool) (misread : List Host.Cell)
    (h : s.seq.active = some a) : (s.readDone l a busy misread).outer = s.outer := by
  obtain ⟨u, run, e | e⟩ := State.readDone_runs l busy misread h <;> rw [e]
  · exact run.outer
  · exact u.outer_startDue.trans run.outer

theorem State.outer_endOccupied (s : State) (l : Layout) : (s.endOccupied l).outer = s.outer := by
  obtain e | ⟨u, run, e⟩ := s.endOccupied_runs l <;> rw [e]
  exact u.outer_startDue.trans run.outer

theorem State.outer_discardWaiting (s : State) : s.discardWaiting.outer = s.outer := by
  obtain e | ⟨i, -, -, -, e⟩ := s.discardWaiting_cases <;> rw [e]
  exact s.outer_discardFrame i

theorem State.outer_popHistory (s : State) : s.popHistory.outer = s.outer := by
  unfold State.popHistory
  split <;> rfl

theorem State.Judged.outer {s u : State} {r : Result} (h : s.Judged u r) : u.outer = s.outer := by
  cases h with
  | reset => exact State.outer_discardWaiting _
  | frameOpen | zones | frameAbandon => exact s.outer_setFrame _ _
  | frameClose => exact (State.outer_setFrame _ _ _).trans s.outer_takeFrame
  | rollback => exact s.outer_popHistory
  | _ => rfl

theorem State.outer_takeRecord (s : State) (k : Kind) (tag : Byte) (body : List Byte) :
    (s.takeRecord k tag body).outer = s.outer :=
  State.takeRecord_keeps (P := fun x => x.outer = s.outer) (fun _ _ h => h.outer) (fun _ _ _ h => h)
    (fun x h => x.outer_startDue.trans h)

theorem State.outer_takeFramed (s : State) (f : Framed) : (s.takeFramed f).outer = s.outer :=
  State.takeFramed_keeps (P := fun x => x.outer = s.outer) (fun _ _ _ h => h)
    (fun x k tag body h => (x.outer_takeRecord k tag body).trans h) f rfl

theorem State.outer_takeProgram (s : State) (offset : Nat) (data : List Byte) : (s.takeProgram offset data).outer = s.outer :=
  State.takeProgram_keeps (P := fun x => x.outer = s.outer) (fun _ _ _ h => h) (fun _ h => h)
    (fun x k tag body h => (x.outer_takeRecord k tag body).trans h) offset data rfl

theorem State.outer_endComputing (s : State) : s.endComputing.outer = s.outer := by
  obtain e | ⟨i, -, -, ⟨-, e⟩ | ⟨-, e⟩⟩ := s.endComputing_cases <;> rw [e]
  · exact (State.outer_takeFrame _).trans (s.outer_discardFrame i)
  · exact State.outer_publishWaiting _

theorem State.outer_lapse (s : State) : s.lapse.outer = s.outer := by
  unfold State.lapse
  dsimp only
  split
  · split
    · exact State.outer_raise _ _
    · exact (State.outer_startDue _).trans (State.outer_raise { s with session := _ } { cls := .sessionLapse })
  · exact State.outer_raise _ _

/-! ### The start-up load's parts -/

theorem State.outer_loadGrid (s : State) (l : Layout) (m : Memory) : (s.loadGrid l m).outer = s.outer := by
  unfold State.loadGrid
  split
  · rw [State.resume_eq]; rfl
  · rfl

theorem State.outer_loadKey (s : State) (slot : Nat) (block : List Byte) : (s.loadKey slot block).outer = s.outer := by
  rw [State.loadKey_eq]; rfl

theorem State.outer_loadRegion (s : State) (l : Layout) (m : Memory) : (s.loadRegion l m).outer = s.outer := by
  rw [State.loadRegion_eq]; rfl

/-! ## What begins a step, and the rest of the lane -/

/-- The flash before and after the sequencer has begun a step: as it stood, or at an erase or a program (R124). -/
def Flash.begins (f g : Flash) : Prop :=
  g = f ∨ (∃ x, g = (f.setLatch true).erase x 4096) ∨ ∃ x d, g = (f.setLatch true).program x d

theorem Flash.begins_wf {f g : Flash} (h : f.begins g) (hf : Memory.wf f.cells = true) : Memory.wf g.cells = true := by
  obtain rfl | ⟨x, rfl⟩ | ⟨x, d, rfl⟩ := h
  · exact hf
  · exact Flash.wf_erase x 4096 hf
  · exact Flash.wf_program x d hf

/-- A step that begins moves the job's phase on, with the append's record where it is due, and may have the flash begin. -/
theorem State.beginReady_cases (s : State) (a : Active) :
    s.beginReady a = s ∨ ∃ p f, s.flash.begins f ∧
      s.beginReady a = State.withActive { s with flash := f } { s.withRecord a with phase := p } := by
  unfold State.beginReady
  split
  · exact .inl rfl
  · exact .inr ⟨_, s.flash, .inl rfl, rfl⟩
  · split
    · exact .inl rfl
    · exact .inr ⟨_, _, .inr (.inl ⟨_, rfl⟩), rfl⟩
  · split
    · exact .inl rfl
    · exact .inr ⟨_, _, .inr (.inr ⟨_, _, rfl⟩), rfl⟩

/-- SEQUENCER_STEP_BEGIN: nothing, or the status read of the job in progress, or its step (R124). -/
theorem State.beginStep_cases (s : State) :
    s.beginStep = s ∨ ∃ a, s.seq.active = some a ∧ (s.beginStep = s.withActive { a with phase := .polling } ∨
      s.beginStep = s.beginReady a) := by
  unfold State.beginStep
  split
  · exact .inl rfl
  split
  · exact .inl rfl
  · refine (em _).elim .inl fun h => .inr ⟨_, ‹_›, ?_⟩
    split
    · exact .inl rfl
    · exact .inr rfl
    all_goals exact absurd (by simp [*]) h

/-- PFW_DEASSERT: the level and the WARNING go, and the held step of the job in progress may begin (R128, R181). -/
theorem State.pfwFall_cases (s : State) :
    s.pfwFall = s ∨ ∃ u, u = { s with pfw := false, conds := { s.conds with records := withdrawWarning s.conds.records } } ∧
      (s.pfwFall = u ∨ ∃ a, s.seq.active = some a ∧ s.pfwFall = u.beginReady a) := by
  unfold State.pfwFall
  split
  · refine .inr ⟨_, rfl, ?_⟩
    dsimp only
    split
    · split
      · exact .inr ⟨_, ‹_›, rfl⟩
      · exact .inl rfl
    · exact .inl rfl
  · exact .inl rfl

theorem State.forgetProfile_eq (s : State) (a : Nat) : s.forgetProfile a = { s with region := (s.forgetProfile a).region } := by
  unfold State.forgetProfile
  split
  · split <;> rfl
  · rfl

/-- The flash's taking of a forwarded command changes the flash and the draws alone. -/
theorem State.flashTakes_eq (s : State) (t : Txn) :
    s.flashTakes t = { s with flash := (s.flashTakes t).flash, draws := (s.flashTakes t).draws } := by
  unfold State.flashTakes
  split <;> rfl

theorem State.flashTakes_wf {s : State} (t : Txn) (h : Memory.wf s.flash.cells = true) :
    Memory.wf (s.flashTakes t).flash.cells = true := by
  unfold State.flashTakes
  split
  · exact Flash.wf_program _ _ h
  · exact Flash.wf_erase _ _ h
  · exact Flash.wf_erase _ _ h
  · exact Flash.wf_erase _ _ h
  · exact h
  · exact h
  · exact Memory.wf_setAll _ h
  all_goals exact h

/-- A select begins a transaction and, on a served lane, cuts the sequencer's read; a withheld command clears the shadow and
the latch (R1, R8, R12). -/
theorem State.select_cases (s : State) (c : LaneCommand) (a : Nat) :
    ∃ t, t = { ignored := s.laneIgnored, command := c, addr := a, occupied := s.occupied,
               treatment := s.treatmentOf c a s.occupied, remapSlot := s.region.selected.map (fun r => r.slot), served := 0,
               data := [], firstFilled := none, overlayGen := none, pages := [] } ∧
      ((t.ignored = true ∧ s.select c a = { s with upstream := some t, served := [] }) ∨
        (t.ignored = false ∧ ∃ shadow latch, s.select c a = { s.cutRead with
          upstream := some t, served := [], shadow := shadow, flash := { s.flash with latch := latch } })) := by
  refine ⟨_, rfl, ?_⟩
  unfold State.select
  dsimp only
  split
  · exact .inl ⟨‹_›, rfl⟩
  · refine .inr ⟨by simpa using ‹¬s.laneIgnored = true›, ?_⟩
    split
    · split
      · exact ⟨false, s.flash.latch, rfl⟩
      · exact ⟨false, false, rfl⟩
    · exact ⟨s.shadow, s.flash.latch, rfl⟩

/-- A dropped transaction may be taken by the flash, and may make the part forget a profile header (R14, R170). -/
theorem State.dropTxn_keeps {P : State → Prop} {s : State} (taken : Bool)
    (takes : ∀ t, s.upstream = some t → t.treatment = .forwarded → P s → P (s.flashTakes t))
    (forget : ∀ x a, P x → P (State.forgetProfile x a)) (hs : P s) : P (s.dropTxn taken) := by
  unfold State.dropTxn
  split
  · exact hs
  rename_i t ht
  split
  · rename_i h
    have taken' : P (if taken = true then s.flashTakes t else s) := by
      split
      · exact takes t ht h.2 hs
      · exact hs
    dsimp only
    split
    · exact forget _ _ taken'
    · exact taken'
  · exact hs

/-! ## Predicates of the outer part -/

/-- A predicate of the outer part is kept by every command once the operations of the lane, the lines and the power keep it. -/
theorem Kept.ofOuter {A : Instr → Prop} {P : State → Prop} (congr : ∀ {s u : State}, P s → u.outer = s.outer → P u)
    (powerOn : ∀ {s} i, A (.powerOn i) → P s → P (s.powerOn i))
    (powerLoss : ∀ {s} reached, A (.powerLoss reached) → P s → P (s.powerLoss reached))
    (resetLine : ∀ {s : State} b, P s → P { s with sysRst := b })
    (laneReset : ∀ {s : State} taken, s.sysRst = false → s.sysHold = false → P s → P (s.laneReset taken))
    (pfw : ∀ {s : State} b, P s → P { s with pfw := b })
    (flashTimer : ∀ {s : State}, P s → P { s with lamp := s.lamp.flashTimer })
    (begins : ∀ {s : State} f, A .pfwDeassert ∨ A .sequencerStepBegin → s.flash.begins f → P s → P { s with flash := f })
    (select : ∀ {s : State} c a, a < flashSize → s.upstream = none → P s → P (s.select c a))
    (passes : ∀ {s u : State}, s.passesTo u → P s → P u) (deselect : ∀ {s}, P s → P s.deselect) : Kept A P where
  powerOn := powerOn
  powerLoss := powerLoss
  resetLine := resetLine
  laneReset := laneReset
  pfwRise h := congr (pfw true h) (State.outer_raise _ _)
  pfwFall {s} hA h := by
    have begun : ∀ {x : State} a, P x → P (x.beginReady a) := by
      intro x a hx
      obtain e | ⟨p, f, hf, e⟩ := x.beginReady_cases a <;> rw [e]
      · exact hx
      · exact congr (begins f (.inl hA) hf hx) rfl
    obtain e | ⟨u, rfl, e | ⟨a, -, e⟩⟩ := s.pfwFall_cases <;> rw [e]
    · exact h
    · exact congr (pfw false h) rfl
    · exact begun a (congr (pfw false h) rfl)
  tick h := congr h rfl
  flashTimer := flashTimer
  lapse _ _ h := congr h (State.outer_lapse _)
  select := select
  passes := passes
  deselect := deselect
  takeProgram o d _ h := congr h (State.outer_takeProgram _ o d)
  takeFramed f _ h := congr h (State.outer_takeFramed _ f)
  takeRecord k t b _ h := congr h (State.outer_takeRecord _ k t b)
  takeFrame h := congr h (State.outer_takeFrame _)
  endComputing h := congr h (State.outer_endComputing _)
  publishWaiting h := congr h (State.outer_publishWaiting _)
  startDue h := congr h (State.outer_startDue _)
  beginStep {s} hA h := by
    obtain e | ⟨a, -, e | e⟩ := s.beginStep_cases <;> rw [e]
    · exact h
    · exact congr h rfl
    · obtain e | ⟨p, f, hf, e⟩ := s.beginReady_cases a <;> rw [e]
      · exact h
      · exact congr (begins f (.inr hA) hf h) rfl
  readDone l _ busy misread _ ha h := congr h (State.outer_readDone l busy misread ha)
  endOccupied l _ h := congr h (State.outer_endOccupied _ l)

/-- A predicate of the flash's bytes, the queue of commands and the lamp alone: what is left is the flash's taking of a forwarded
command, its beginning of a step, the lamp's timer and the beginning and the end of power. -/
theorem Kept.ofFlash {A : Instr → Prop} {P : State → Prop}
    (congr : ∀ {s u : State}, P s → u.flash.cells = s.flash.cells → u.pending = s.pending → u.lamp = s.lamp → P u)
    (flashTimer : ∀ {s : State}, P s → P { s with lamp := s.lamp.flashTimer })
    (up : ∀ {s : State} lineMode, P s → P (s.powerUp lineMode))
    (takes : ∀ {s : State} t, P s → P (s.flashTakes t))
    (begins : ∀ {s : State} f, A .pfwDeassert ∨ A .sequencerStepBegin → s.flash.begins f → P s → P { s with flash := f })
    (lost : ∀ {s : State} reached, A (.powerLoss reached) → P s → P (s.powerLoss reached)) : Kept A P :=
  have outer : ∀ {s u : State}, P s → u.outer = s.outer → P u := fun hs h =>
    congr hs (State.outer_cells h) (State.outer_pending h) (State.outer_lamp h)
  have forget : ∀ (x : State) a, P x → P (x.forgetProfile a) := fun x a hx => by
    rw [State.forgetProfile_eq]
    exact congr hx rfl rfl rfl
  Kept.ofOuter outer
    (fun {s} i _ h => State.powerOn_keeps (L := P) (up _ h) (fun _ _ _ _ => congr (up i.lineMode h) rfl rfl rfl)
      (fun x hx => outer (congr (u := { x with pfw := true }) hx rfl rfl rfl) (State.outer_raise _ _))
      (fun x r hx => outer hx (x.outer_raise r)) (fun x l m hx => outer hx (x.outer_loadGrid l m))
      (fun x k b hx => outer hx (x.outer_loadKey k b)) (fun x l m hx => outer hx (x.outer_loadRegion l m))
      (fun x _ hx => congr hx rfl rfl rfl) (fun _ hx => hx) (fun x hx => outer (congr hx rfl rfl rfl) (State.outer_startDue _)))
    lost (fun _ h => congr h rfl rfl rfl)
    (fun {s} taken _ _ h => by
      refine congr (State.dropTxn_keeps taken (fun t _ _ => takes t) forget h) ?_ (State.releasePanel_pending _) (State.releasePanel_lamp _)
      refine (congrArg Flash.cells (State.releasePanel_flash _)).trans ?_
      dsimp only
      split <;> rfl)
    (fun _ h => congr h rfl rfl rfl) flashTimer begins
    (fun {s} c a _ _ h => by
      obtain ⟨t, -, ⟨-, e⟩ | ⟨-, _, _, e⟩⟩ := s.select_cases c a <;> rw [e] <;> exact congr h rfl rfl rfl)
    (fun {s u} hp h => by
      obtain rfl | ⟨_, _, _, _, _, _, _, _, _, rfl⟩ := hp
      · exact h
      · exact congr h rfl rfl rfl)
    (fun {s} h => by
      cases ht : s.upstream with
      | none => rw [State.deselect_idle ht]; exact h
      | some t =>
        refine State.deselect_keeps ht (fun _ => congr h rfl rfl rfl) (fun _ => ?_)
        exact State.endTxn_keeps (fun x _ _ _ hx => congr hx rfl rfl rfl) (fun x hx => congr hx rfl rfl rfl)
          (fun x r hx => outer hx (x.outer_raise r)) (fun x _ hx => congr hx rfl rfl rfl) forget
          (fun _ x hx => takes t hx) (fun _ x hx => outer hx (x.outer_takeProgram _ _))
          (outer (s := { s with upstream := none }) (congr h rfl rfl rfl) (State.outer_releasePanel _)))

/-! ## From the parts of the operations to every command -/

/-- The parts that the operations are made of, each keeping a predicate. -/
structure Parts (A : Instr → Prop) (P : State → Prop) : Prop where
  powerOn : ∀ {s} i, A (.powerOn i) → P s → P (s.powerOn i)
  powerLoss : ∀ {s} reached, A (.powerLoss reached) → P s → P (s.powerLoss reached)
  laneReset : ∀ {s : State} taken, s.sysRst = false → s.sysHold = false → P s → P (s.laneReset taken)
  resetLine : ∀ {s : State} b, P s → P { s with sysRst := b }
  pfwLine : ∀ {s : State} b, P s → P { s with pfw := b }
  flashTimer : ∀ {s : State}, P s → P { s with lamp := s.lamp.flashTimer }
  tick : ∀ {s : State}, P s → P { s with session := s.session.tick }
  lapsed : ∀ {s : State} n, s.session.timer = .running n → P s → P { s with session := { s.session with state := .lapsed } }
  parks : ∀ {s : State}, s.grid.geometry ≠ none → s.queueFull = false → P s → P (s.queueJob (plainJob .park 0))
  raise : ∀ {s} r, P s → P (s.raise r)
  withdraw : ∀ {s : State}, P s → P { s with conds := { s.conds with records := withdrawWarning s.conds.records } }
  select : ∀ {s : State} c a, a < flashSize → s.upstream = none → P s → P (s.select c a)
  passes : ∀ {s u : State}, s.passesTo u → P s → P u
  ignored : ∀ {s : State} {t}, s.upstream = some t → t.ignored = true → P s → P { s with upstream := none }
  released : ∀ {s : State}, P s → P (State.releasePanel { s with upstream := none })
  charge : ∀ {s} w f, f ∈ [CounterSet.addRead, CounterSet.addWrite, CounterSet.addWithheld] → P s → P (s.charge w f)
  watches : ∀ {s} t, P s → P (s.countWatches t)
  shadow : ∀ {s : State} b, P s → P { s with shadow := b }
  forget : ∀ {s} a, P s → P (s.forgetProfile a)
  takes : ∀ {s} t, P s → P (s.flashTakes t)
  draw : ∀ {s : State}, P s → P { s with draws := s.draws + 1 }
  note : ∀ {s : State} tag r, P s → P (s.noteRecord tag r)
  judged : ∀ {s u : State} {r}, s.Judged u r → P s → P u
  begun : ∀ {s : State} {j t d}, s.seq.active = none → s.seq.waiting = j :: t → d.fresh s j → P s →
    P (State.begun { s with seq := { s.seq with waiting := t } } j d)
  runs : ∀ {s u : State}, s.Runs u → P s → P u
  takeFrame : ∀ {s}, P s → P s.takeFrame
  endComputing : ∀ {s}, P s → P s.endComputing
  publishWaiting : ∀ {s}, P s → P s.publishWaiting
  begins : ∀ {s : State} {a} p f, A .pfwDeassert ∨ A .sequencerStepBegin → s.seq.active = some a → s.flash.begins f → P s →
    P (State.withActive { s with flash := f } { s.withRecord a with phase := p })

section
variable {A : Instr → Prop} {P : State → Prop}

theorem Parts.startDue (K : Parts A P) {s : State} (h : P s) : P s.startDue :=
  State.startDue_keeps (fun _ _ _ _ idle hw fresh hs => K.begun idle hw fresh hs) (fun _ _ run hs => K.runs run hs) h

theorem Parts.takeRecord (K : Parts A P) {s : State} (k : Kind) (tag : Byte) (body : List Byte) (h : P s) :
    P (s.takeRecord k tag body) :=
  State.takeRecord_keeps (fun _ _ hj => K.judged hj h) (fun _ tag r h => K.note tag r h) (fun _ h => K.startDue h)

theorem Parts.takeProgram (K : Parts A P) {s : State} (offset : Nat) (data : List Byte) (h : P s) :
    P (s.takeProgram offset data) :=
  State.takeProgram_keeps (fun _ tag r h => K.note tag r h) (fun _ h => K.draw h)
    (fun _ k tag body h => K.takeRecord k tag body h) offset data h

theorem Parts.beginReady (K : Parts A P) (hA : A .pfwDeassert ∨ A .sequencerStepBegin) {s : State} {a : Active}
    (ha : s.seq.active = some a) (h : P s) : P (s.beginReady a) := by
  obtain e | ⟨p, f, hf, e⟩ := s.beginReady_cases a <;> rw [e]
  · exact h
  · exact K.begins p f hA ha hf h

/-- The end of a transaction that the parts make up. -/
theorem Parts.deselect (K : Parts A P) {s : State} (h : P s) : P s.deselect := by
  cases ht : s.upstream with
  | none => rw [State.deselect_idle ht]; exact h
  | some t =>
    exact State.deselect_keeps ht (fun hi => K.ignored ht hi h) fun _ =>
      State.endTxn_keeps (fun _ w f hf hx => K.charge w f hf hx) (fun _ hx => K.watches t hx) (fun _ r hx => K.raise r hx)
        (fun _ b hx => K.shadow b hx) (fun _ a hx => K.forget a hx) (fun _ _ hx => K.takes t hx)
        (fun _ _ hx => K.takeProgram _ _ hx) (K.released h)

theorem Parts.lapse (K : Parts A P) {s : State} (n : Nat) (hn : s.session.timer = .running n) (h : P s) : P s.lapse := by
  have lapsed := K.lapsed n hn h
  unfold State.lapse
  dsimp only
  split
  · rename_i unsaved
    split
    · exact K.raise _ lapsed
    · rename_i room
      refine K.startDue (K.parks ?_ ?_ (K.raise _ lapsed))
      · simp only [State.unsaved, Bool.and_eq_true] at unsaved
        rw [State.raise_grid]
        exact Option.isSome_iff_ne_none.1 unsaved.1.1
      · unfold State.queueFull at room ⊢
        rw [State.raise_seq]
        simpa using room
  · exact K.raise _ lapsed

/-- What keeps a predicate part by part keeps it through every command. -/
theorem Parts.kept (K : Parts A P) : Kept A P where
  powerOn := K.powerOn
  powerLoss := K.powerLoss
  resetLine := K.resetLine
  laneReset := K.laneReset
  pfwRise h := K.raise _ (K.pfwLine true h)
  pfwFall {s} hA h := by
    have withdrawn := K.withdraw (K.pfwLine false h)
    obtain e | ⟨u, rfl, e | ⟨a, ha, e⟩⟩ := s.pfwFall_cases <;> rw [e]
    · exact h
    · exact withdrawn
    · exact K.beginReady (.inl hA) ha withdrawn
  tick := K.tick
  flashTimer := K.flashTimer
  lapse := K.lapse
  select := K.select
  passes := K.passes
  deselect := K.deselect
  takeProgram o d _ h := K.takeProgram o d h
  takeFramed f _ h := State.takeFramed_keeps (fun _ tag r h => K.note tag r h)
    (fun _ k tag body h => K.takeRecord k tag body h) f h
  takeRecord k tag body _ h := K.takeRecord k tag body h
  takeFrame := K.takeFrame
  endComputing := K.endComputing
  publishWaiting := K.publishWaiting
  startDue := K.startDue
  beginStep {s} hA h := by
    obtain e | ⟨a, ha, e | e⟩ := s.beginStep_cases <;> rw [e]
    · exact h
    · exact K.runs (State.runs_withActive (a := a) ⟨a, ha, a.same_refl⟩ ⟨rfl, rfl, rfl, rfl⟩) h
    · exact K.beginReady (.inr hA) ha h
  readDone l _ busy misread _ ha h := by
    obtain ⟨u, run, e | e⟩ := State.readDone_runs l busy misread ha <;> rw [e]
    · exact K.runs run h
    · exact K.startDue (K.runs run h)
  endOccupied {s} l _ h := by
    obtain e | ⟨u, run, e⟩ := s.endOccupied_runs l <;> rw [e]
    · exact h
    · exact K.startDue (K.runs run h)

end

/-! ## The statements -/

/-- Settles O1: both clauses are the definition of a step. -/
theorem stepRunsTheFrontCommand : Obligations.StepRunsTheFrontCommand :=
  ⟨fun _ _ s h => by simp only [step, h], fun s h => by simp only [step, h]⟩

/-- Settles O4: the values are those `State.reset` names. -/
theorem powerOnValues : Obligations.PowerOnValues := by
  refine ⟨rfl, rfl, rfl, rfl, rfl, rfl, rfl, rfl, fun e he => List.eq_of_mem_replicate he, rfl, rfl, rfl, rfl, rfl, rfl, rfl, rfl,
    rfl, rfl, rfl, rfl, rfl, rfl, rfl, rfl, rfl, rfl, rfl, rfl, fun w hw => List.eq_of_mem_replicate hw, rfl, rfl, rfl, rfl,
    rfl, rfl, rfl⟩

/-- Every command answers a next state. -/
theorem exec_next (c : Instr) (s : State) : ∃ t, exec c s = .next t := by
  cases c with
  | idleTimerExpiry =>
    simp only [exec, execIdleTimerExpiry]
    split <;> exact ⟨_, rfl⟩
  | _ => exact ⟨_, rfl⟩

/-- Settles O2: no operation changes the queue of commands, and a change of power carries it over. -/
theorem everyCommandCompletesAndKeepsTheQueue : Obligations.EveryCommandCompletesAndKeepsTheQueue := by
  intro c s
  obtain ⟨t, h⟩ := exec_next c s
  have kept : Kept (fun _ => True) (fun x => x.pending = s.pending) :=
    Kept.ofFlash (fun h _ e _ => e.trans h) (fun h => h) (fun _ h => h) (fun {x} t h => by rw [State.flashTakes_eq]; exact h) (fun _ _ _ h => h)
      (fun _ _ h => h)
  obtain ⟨u, hu, rfl⟩ := kept.exec trivial h rfl
  exact ⟨u.settle, h, hu⟩

/-- A predicate that every command and the taking of the front command keep is kept by every step. -/
theorem Kept.step {P : State → Prop} (K : Kept (fun _ => True) P) (pending : ∀ (s : State) q, P s → P { s with pending := q })
    (settle : ∀ s, P s → P s.settle) {s t : State} (hs : P s) (h : step s = .next t) : P t := by
  unfold Machine.step at h
  split at h
  · cases h
    exact hs
  · obtain ⟨u, hu, rfl⟩ := K.exec trivial h (pending _ _ hs)
    exact settle u hu

/-- Settles O6: each write of the flash keeps the canonical form, and a cut one leaves it. -/
theorem stepsKeepTheMemoryForm : Obligations.StepsKeepTheMemoryForm := by
  have kept : Kept (fun _ => True) State.flashSound :=
    Kept.ofFlash (fun {s u} h e _ _ => by unfold State.flashSound; rw [e]; exact h) (fun h => h) (fun _ h => h) (fun t h => State.flashTakes_wf t h)
      (fun f _ hf h => Flash.begins_wf hf h) (fun reached _ h => Flash.wf_cut reached h)
  exact fun s t hs h => kept.step (fun _ _ h => h) (fun _ h => h) hs h

end Sys2Proof.Machine
end

section
/-! The Condition Queue's law (13_conditions_and_the_attention_line.md, R179, R181, R182): the statement O8. -/

namespace Sys2Proof.Machine

/-! ## Class and merge key -/

/-- The class and merge key of a queued record, by which reports merge (R178). -/
def CondRecord.key (c : CondRecord) : CondClass × MergeKey := (c.cls, mergeKey c.cls c.address c.slot)

theorem CondRecord.sameKey_eq_false (c d : CondRecord) : c.sameKey d = false ↔ c.key ≠ d.key := by
  simp only [CondRecord.sameKey, CondRecord.key, ne_eq, Prod.mk.injEq, Bool.and_eq_false_iff, decide_eq_false_iff_not,
    not_and_or]

/-- No two records of one class and merge key: the keys of the queue are distinct. -/
theorem pairwise_sameKey_iff (q : List CondRecord) :
    q.Pairwise (fun c d => c.sameKey d = false) ↔ (q.map CondRecord.key).Nodup := by
  simp only [List.Nodup, List.pairwise_map, CondRecord.sameKey_eq_false]

theorem mergeFirst_key (r : Report) (q : List CondRecord) : (mergeFirst r q).map CondRecord.key = q.map CondRecord.key := by
  induction q with
  | nil => rfl
  | cons c t ih =>
    unfold mergeFirst
    split
    · rfl
    · rw [List.map_cons, ih, List.map_cons]

theorem modifyLast_key {f : CondRecord → CondRecord} (hf : ∀ c, (f c).key = c.key) (q : List CondRecord) :
    (modifyLast f q).map CondRecord.key = q.map CondRecord.key := by
  induction q with
  | nil => rfl
  | cons c t ih =>
    cases t with
    | nil => simp only [modifyLast, List.map_cons, List.map_nil, hf]
    | cons d t => rw [modifyLast, List.map_cons, ih]; rfl

theorem CondRecord.joins_eq_false (c : CondRecord) (r : Report) :
    c.joins r = false ↔ c.key ≠ (r.cls, mergeKey r.cls r.address r.slot) := by
  simp only [CondRecord.joins, CondRecord.key, ne_eq, Prod.mk.injEq, Bool.and_eq_false_iff, decide_eq_false_iff_not, not_and_or]

/-! ## What the queue's operations keep -/

theorem knownFault_length (known : List Nat) (r : Report) (h : known.length ≤ 8) : (knownFault known r).2.length ≤ 8 := by
  unfold knownFault
  split
  · split_ifs
    · exact h
    · simp only [List.length_append, List.length_drop, List.length_singleton]; omega
    · simp only [List.length_append, List.length_singleton]; omega
  · exact h

theorem State.condsSound_congr {s u : State} (h : s.condsSound) (e : u.conds = s.conds) : u.condsSound := by
  unfold State.condsSound
  rw [e]
  exact h

/-- A report taken keeps the law: it joins the one record of its key, or makes one where none has it, or marks the newest. -/
theorem State.condsSound_raise {s : State} (r : Report) (h : s.condsSound) : (s.raise r).condsSound := by
  obtain ⟨len, keys, known, mask, counter⟩ := h
  have known' := knownFault_length s.conds.known r known
  rw [pairwise_sameKey_iff] at keys
  unfold State.condsSound
  obtain ⟨-, e⟩ | ⟨fresh, room, e⟩ | ⟨-, -, e⟩ := s.raise_cases r <;> rw [e]
  · exact ⟨(mergeFirst_length r _).le.trans len, (pairwise_sameKey_iff _).2 (by rw [mergeFirst_key]; exact keys), known', mask,
      counter⟩
  · refine ⟨by simp only [List.length_append, List.length_singleton]; omega, (pairwise_sameKey_iff _).2 ?_, known', mask,
      Nat.mod_lt _ (by decide)⟩
    rw [List.map_append, List.nodup_append]
    refine ⟨keys, List.nodup_singleton _, fun k hk d hd => ?_⟩
    obtain ⟨c, hc, rfl⟩ := List.mem_map.1 hk
    obtain rfl : d = _ := List.mem_singleton.1 hd
    exact (c.joins_eq_false r).1 (fresh c hc)
  · exact ⟨(modifyLast_length _ _).le.trans len,
      (pairwise_sameKey_iff _).2 (by rw [modifyLast_key (f := fun x => x.overflowed _) (fun _ => rfl)]; exact keys), known', mask, counter⟩

theorem withdrawWarning_law {q : List CondRecord} (len : q.length ≤ 16) (keys : (q.map CondRecord.key).Nodup) :
    (withdrawWarning q).length ≤ 16 ∧ ((withdrawWarning q).map CondRecord.key).Nodup := by
  unfold withdrawWarning
  split
  · exact ⟨len, keys⟩
  · rw [modifyLast_length, modifyLast_key (f := fun x => x.inherits _) (fun _ => rfl)]
    have sub : List.Sublist (q.eraseP fun r => decide (r.cls = .warning)) q := List.eraseP_sublist
    exact ⟨sub.length_le.trans len, keys.sublist (sub.map _)⟩

/-- Only maskable classes are masked by an accepted MASK (R182). -/
theorem and_maskable (m : BitVec 16) : m &&& maskable &&& ~~~maskable = 0 := by
  rw [BitVec.and_assoc, BitVec.and_not_self]
  exact BitVec.and_zero

/-! ## Every operation -/

theorem State.condsSound_damageKey {s : State} (slot : Nat) (e : KeyEntry) (h : s.condsSound) :
    (s.damageKey slot e).condsSound :=
  State.condsSound_raise _ (State.condsSound_congr h rfl)

theorem State.condsSound_endJob {s : State} (a : Active) (o : JobOutcome) (g : Nat) (h : s.condsSound) :
    (s.endJob a o g).condsSound := by
  have kept : ∀ u : State, u.conds = s.conds → u.condsSound := fun u e => State.condsSound_congr h e
  unfold State.endJob State.endActions
  split
  · exact kept _ (State.unlock_conds _)
  · split <;> exact kept _ (State.unlock_conds _)
  · split
    · exact kept _ rfl
    · exact State.condsSound_damageKey a.job.slot KeyEntry.empty (kept _ rfl)
  · split
    · exact kept _ rfl
    · exact State.condsSound_damageKey a.job.slot KeyEntry.empty (kept _ rfl)
  · split <;> exact kept _ rfl
  · split <;> exact kept _ rfl
  · exact kept _ rfl
  · exact kept _ rfl

theorem State.condsSound_judgeKey {s : State} (slot : Nat) (blocks : List (List Byte)) (h : s.condsSound) :
    (s.judgeKey slot blocks).condsSound := by
  unfold State.judgeKey
  dsimp only
  split
  · exact h
  split
  · exact h
  split
  · exact State.condsSound_damageKey _ _ h
  · split
    · exact State.condsSound_damageKey _ _ h
    · exact h

theorem State.condsSound_runs {s u : State} (h : s.Runs u) (hs : s.condsSound) : u.condsSound := by
  induction h with
  | done => exact hs
  | ends o g _ _ _ ih => exact ih (State.condsSound_endJob _ o g hs)
  | raises r _ ih => exact ih (State.condsSound_raise r hs)
  | judgesKey slot blocks _ ih => exact ih (State.condsSound_judgeKey slot blocks hs)
  | goesOn _ _ _ ih | appends _ _ _ _ ih | tallies _ _ ih | fills _ _ ih | scrubs _ _ _ _ ih | regions _ _ _ ih
  | flash _ _ ih => exact ih hs

theorem State.begun_conds (s : State) (j : Job) (d : JobData) : (s.begun j d).conds = s.conds := by
  unfold State.begun
  split <;> rfl

theorem State.condsSound_judged {s u : State} {r : Result} (h : s.Judged u r) (hs : s.condsSound) : u.condsSound := by
  cases h with
  | reset =>
    refine State.condsSound_congr hs ?_
    unfold judgeResetSession
    obtain e | ⟨i, -, -, -, e⟩ := State.discardWaiting_cases _ <;> rw [e]
    exact State.discardFrame_conds _ i
  | mask m =>
    obtain ⟨len, keys, known, -, counter⟩ := hs
    exact ⟨len, keys, known, and_maskable m, counter⟩
  | retire e =>
    obtain ⟨len, keys, known, mask, counter⟩ := hs
    rw [e] at len keys
    exact ⟨(Nat.le_succ _).trans len, (List.pairwise_cons.1 keys).2, known, mask, counter⟩
  | frameOpen | zones | frameAbandon => exact State.condsSound_congr hs (State.setFrame_conds _ _ _)
  | frameClose => exact State.condsSound_congr hs (by simp)
  | rollback => exact State.condsSound_congr hs (by unfold State.popHistory; split <;> rfl)
  | _ => exact hs

theorem State.condsSound_resume {s : State} (l : Layout) (m : Memory) (h : s.condsSound) : (s.resume l m).condsSound := by
  have raised : ∀ (rs : List Report) (x : State), x.condsSound → (x.raiseAll rs).condsSound := by
    intro rs
    induction rs with
    | nil => exact fun _ hx => hx
    | cons r t ih => exact fun x hx => ih _ (State.condsSound_raise r hx)
  unfold State.resume
  split
  · exact h
  · exact State.condsSound_congr (raised _ _ h) rfl

theorem State.condsSound_endComputing {s : State} (h : s.condsSound) : s.endComputing.condsSound := by
  refine State.condsSound_congr h ?_
  obtain e | ⟨i, -, -, ⟨-, e⟩ | ⟨-, e⟩⟩ := s.endComputing_cases <;> rw [e] <;> simp

theorem State.condsSound_loadKey {s : State} (slot : Nat) (block : List Byte) (h : s.condsSound) :
    (s.loadKey slot block).condsSound := by
  unfold State.loadKey
  dsimp only
  split
  · exact h
  split
  · exact State.condsSound_damageKey _ _ h
  · split
    · exact State.condsSound_damageKey _ _ h
    · exact h

theorem State.condsSound_loadRegion {s : State} (l : Layout) (m : Memory) (h : s.condsSound) :
    (s.loadRegion l m).condsSound := by
  unfold State.loadRegion
  split
  · unfold State.loadClasses
    dsimp only
    split
    · split <;> exact h
    · split
      · exact h
      · exact State.condsSound_raise _ (State.condsSound_congr h rfl)
  · exact h

theorem State.condsSound_reset : State.reset.condsSound :=
  ⟨Nat.zero_le _, List.Pairwise.nil, Nat.zero_le _, by decide, by decide⟩

theorem State.condsSound_laneReset {s : State} (taken : Bool) (h : s.condsSound) : (s.laneReset taken).condsSound := by
  refine State.condsSound_congr h ((State.releasePanel_conds _).trans ?_)
  exact State.dropTxn_keeps (P := fun x => x.conds = s.conds) taken (fun _ _ _ _ => by rw [State.flashTakes_eq])
    (fun _ _ h => by rw [State.forgetProfile_eq]; exact h) rfl

theorem State.condsSound_begun {s : State} {j : Job} {d : JobData} (h : s.condsSound) : (s.begun j d).condsSound :=
  State.condsSound_congr h (s.begun_conds j d)

/-- Every part keeps the law. -/
theorem State.condsSound_parts : Parts (fun _ => True) State.condsSound where
  powerOn {s} i _ _ :=
    State.powerOn_keeps (L := State.condsSound) State.condsSound_reset (fun _ _ _ _ => State.condsSound_reset)
      (fun _ hx => State.condsSound_raise _ hx) (fun _ r hx => State.condsSound_raise r hx)
      (fun x l m hx => by
        unfold State.loadGrid
        split
        · exact State.condsSound_resume l m hx
        · exact hx)
      (fun _ k b hx => State.condsSound_loadKey k b hx) (fun _ l m hx => State.condsSound_loadRegion l m hx)
      (fun _ _ hx => hx) (fun _ hx => hx)
      (fun _ hx => State.startDue_keeps (fun _ _ _ _ _ _ _ hs => State.condsSound_begun hs)
        (fun _ _ run hs => State.condsSound_runs run hs) hx)
  powerLoss _ _ _ := State.condsSound_reset
  laneReset taken _ _ h := State.condsSound_laneReset taken h
  resetLine _ h := h
  pfwLine _ h := h
  flashTimer h := h
  tick h := h
  lapsed _ _ h := h
  parks _ _ h := h
  raise r h := State.condsSound_raise r h
  withdraw h := by
    obtain ⟨len, keys, known, mask, counter⟩ := h
    obtain ⟨len', keys'⟩ := withdrawWarning_law len ((pairwise_sameKey_iff _).1 keys)
    exact ⟨len', (pairwise_sameKey_iff _).2 keys', known, mask, counter⟩
  select {s} c a _ _ h := by
    obtain ⟨t, -, ⟨-, e⟩ | ⟨-, _, _, e⟩⟩ := s.select_cases c a <;> rw [e] <;> exact h
  passes hp h := by
    obtain rfl | ⟨_, _, _, _, _, _, _, _, _, rfl⟩ := hp <;> exact h
  ignored _ _ h := h
  released h := State.condsSound_congr h (State.releasePanel_conds _)
  charge _ _ _ h := h
  watches _ h := h
  shadow _ h := h
  forget a h := by rw [State.forgetProfile_eq]; exact h
  takes t h := by rw [State.flashTakes_eq]; exact h
  draw h := h
  note _ _ h := h
  judged hj h := State.condsSound_judged hj h
  begun _ _ _ h := State.condsSound_begun h
  runs run h := State.condsSound_runs run h
  takeFrame h := State.condsSound_congr h (State.takeFrame_conds _)
  endComputing h := State.condsSound_endComputing h
  publishWaiting h := State.condsSound_congr h (State.publishWaiting_conds _)
  begins _ _ _ _ _ h := h

/-- Settles O8. -/
theorem stepsKeepTheConditionQueueLaw : Obligations.StepsKeepTheConditionQueueLaw :=
  fun _ _ hs h => State.condsSound_parts.kept.step (fun _ _ h => h) (fun _ h => h) hs h

end Sys2Proof.Machine
end

section
/-! The sizes of the queues and tables and the widths of the counters (R13, R33, R34, R114, R121, R122): the statement O9. -/

namespace Sys2Proof.Machine

/-! ## The tables' own operations -/

theorem modifyAt_length {α : Type} (l : List α) (i : Nat) (f : α → α) : (modifyAt l i f).length = l.length := by
  induction l generalizing i with
  | nil => rfl
  | cons x t ih =>
    cases i with
    | zero => rfl
    | succ i => rw [modifyAt, List.length_cons, ih, List.length_cons]

theorem modifyAt_forall {α : Type} {p : α → Prop} {f : α → α} (hf : ∀ x, p x → p (f x)) (l : List α) (i : Nat)
    (h : ∀ x ∈ l, p x) : ∀ x ∈ modifyAt l i f, p x := by
  induction l generalizing i with
  | nil => exact h
  | cons y t ih =>
    obtain ⟨hy, ht⟩ := List.forall_mem_cons.1 h
    cases i with
    | zero => exact List.forall_mem_cons.2 ⟨hf y hy, ht⟩
    | succ i => exact List.forall_mem_cons.2 ⟨hy, ih i ht⟩

theorem satSucc_le {top n : Nat} (h : n ≤ top) : satSucc top n ≤ top := by
  unfold satSucc
  split <;> omega

theorem recordOutcome_length (l : List OutcomeEntry) (i : Nat) (tag : Byte) (o : JobOutcome) (g : Nat) :
    (recordOutcome l i tag o g).length = l.length := modifyAt_length _ _ _

theorem recordOutcome_count (l : List OutcomeEntry) (i : Nat) (tag : Byte) (o : JobOutcome) (g : Nat)
    (h : ∀ e ∈ l, e.count < 256) : ∀ e ∈ recordOutcome l i tag o g, e.count < 256 :=
  modifyAt_forall (p := fun e : OutcomeEntry => e.count < 256) (fun e _ => Nat.mod_lt (e.count + 1) (by decide)) l i h

theorem tallyVictim_lt {l : List TallyEntry} {j : Nat} (h : tallyVictim l = some j) : j < l.length := by
  induction l generalizing j with
  | nil => cases h
  | cons e t ih =>
    unfold tallyVictim at h
    split at h
    · cases h
      exact Nat.succ_pos _
    · rename_i k hk
      split at h
      · cases h
        exact Nat.succ_pos _
      · cases h
        exact Nat.succ_lt_succ (ih hk)

theorem tallyVictim_none {l : List TallyEntry} (h : tallyVictim l = none) : l = [] := by
  cases l with
  | nil => rfl
  | cons e t =>
    unfold tallyVictim at h
    split at h
    · cases h
    · split at h <;> cases h

/-- A correction keeps the tally within 16 entries, each with a count of at most 255 (R121). -/
theorem tallyCorrection_bounds (l : List TallyEntry) (x : Nat) (len : l.length ≤ 16) (counts : ∀ e ∈ l, e.count ≤ 255) :
    (tallyCorrection l x).1.length ≤ 16 ∧ ∀ e ∈ (tallyCorrection l x).1, e.count ≤ 255 := by
  unfold tallyCorrection
  split
  · rename_i i hi
    dsimp only
    refine ⟨by rw [List.length_set]; exact len, fun e he => ?_⟩
    obtain he | rfl := List.mem_or_eq_of_mem_set he
    · exact counts e he
    · have inside : i < l.length := (List.findIdx?_eq_some_iff_getElem.1 hi).1
      refine satSucc_le ?_
      rw [List.getD_eq_getElem _ _ inside]
      exact counts _ (List.getElem_mem inside)
  · dsimp only
    have kept : ∀ k, (k.length ≤ 15 ∧ ∀ e ∈ k, e.count ≤ 255) →
        (k ++ [({ sector := x, count := 1, reported := false } : TallyEntry)]).length ≤ 16 ∧
          ∀ e ∈ k ++ [({ sector := x, count := 1, reported := false } : TallyEntry)], e.count ≤ 255 := by
      rintro k ⟨hl, hc⟩
      refine ⟨by rw [List.length_append, List.length_singleton]; omega, fun e he => ?_⟩
      obtain he | he := List.mem_append.1 he
      · exact hc e he
      · obtain rfl := List.mem_singleton.1 he
        exact (by decide : 1 ≤ 255)
    refine kept _ ?_
    split
    · exact ⟨by omega, counts⟩
    · split
      · rename_i j hj
        refine ⟨?_, fun e he => counts e (List.mem_of_mem_eraseIdx he)⟩
        rw [List.length_eraseIdx_of_lt (tallyVictim_lt hj)]
        omega
      · rename_i none
        rw [tallyVictim_none none]
        exact ⟨Nat.zero_le _, nofun⟩

/-! ## The invariant -/

theorem State.tablesSound_congr {s u : State} (h : s.tablesSound) (waiting : u.seq.waiting = s.seq.waiting)
    (tally : u.seq.tally = s.seq.tally) (counters : u.counters = s.counters) (watches : u.watches = s.watches)
    (intake : u.intake = s.intake) : u.tablesSound := by
  unfold State.tablesSound
  rw [waiting, tally, counters, watches, intake]
  exact h

/-- An ending written into the outcome table (R34). -/
theorem State.tablesSound_outcome {s : State} (h : s.tablesSound) (i : Nat) (tag : Byte) (o : JobOutcome) (g : Nat) :
    State.tablesSound { s with intake := { s.intake with outcomes := recordOutcome s.intake.outcomes i tag o g } } := by
  obtain ⟨w, t, c, m, len, n, x, cs, ms, counts, ts⟩ := h
  exact ⟨w, t, c, m, (recordOutcome_length _ i tag o g).trans len, n, x, cs, ms, recordOutcome_count _ i tag o g counts, ts⟩

theorem State.tablesSound_queueJob {s : State} (j : Job) (room : s.queueFull = false) (h : s.tablesSound) :
    (s.queueJob j).tablesSound := by
  obtain ⟨-, rest⟩ := h
  refine ⟨?_, rest⟩
  unfold State.queueFull at room
  simp only [decide_eq_false_iff_not] at room
  simp only [State.queueJob_waiting, List.length_append, List.length_singleton]
  omega

theorem State.tablesSound_discardFrame {s : State} (i : Bool) (h : s.tablesSound) : (s.discardFrame i).tablesSound := by
  refine State.tablesSound_congr (State.tablesSound_outcome h solveEntry (s.frame i).tag .discarded 0) ?_ ?_ ?_ ?_ ?_ <;>
    cases i <;> rfl

theorem State.tablesSound_publishFrame {s : State} (i : Bool) (h : s.tablesSound) : (s.publishFrame i).tablesSound := by
  refine State.tablesSound_congr (State.tablesSound_outcome h solveEntry (s.frame i).tag .done 0) ?_ ?_ ?_ ?_ ?_ <;>
    cases i <;> rfl

theorem State.tablesSound_takeFrame {s : State} (h : s.tablesSound) : s.takeFrame.tablesSound :=
  State.tablesSound_congr h (by simp) (by simp) (by simp) (by simp) (by simp)

theorem State.tablesSound_publishWaiting {s : State} (h : s.tablesSound) : s.publishWaiting.tablesSound := by
  obtain e | ⟨i, -, -, -, ⟨-, e⟩ | ⟨-, e⟩⟩ := s.publishWaiting_cases <;> rw [e]
  · exact h
  · exact State.tablesSound_takeFrame (State.tablesSound_discardFrame i h)
  · exact State.tablesSound_takeFrame (State.tablesSound_publishFrame i h)

theorem State.tablesSound_endComputing {s : State} (h : s.tablesSound) : s.endComputing.tablesSound := by
  obtain e | ⟨i, -, -, ⟨-, e⟩ | ⟨-, e⟩⟩ := s.endComputing_cases <;> rw [e]
  · exact h
  · exact State.tablesSound_takeFrame (State.tablesSound_discardFrame i h)
  · exact State.tablesSound_publishWaiting h

theorem State.tablesSound_raise {s : State} (r : Report) (h : s.tablesSound) : (s.raise r).tablesSound :=
  State.tablesSound_congr h (by simp) (by simp) (by simp) (by simp) (by simp)

/-- A job's end keeps what the writing of its outcome and each of the end actions keep. -/
theorem State.endJob_keeps {P : State → Prop} {s : State} (a : Active) (o : JobOutcome) (g : Nat)
    (ended : P { s with
      intake := { s.intake with outcomes := recordOutcome s.intake.outcomes (a.job.kind.code - 1) a.job.tag o g }
      seq := { s.seq with active := none } })
    (unlock : ∀ x, P x → P (State.unlock x)) (clear : ∀ x : State, P x → P { x with history := x.history.clear })
    (key : ∀ (x : State) slot e, P x → P (x.setKey slot e)) (damage : ∀ (x : State) slot e, P x → P (x.damageKey slot e))
    (staging : ∀ (x : State), P x → P x.clearStaging)
    (region : ∀ (x : State) sel cs, P x → P { x with region := { x.region with selected := sel, classes := cs } })
    (closed : ∀ x : State, P x → P { x with session := { x.session with state := .closed } }) : P (s.endJob a o g) := by
  unfold State.endJob State.endActions
  split
  · exact unlock _ ended
  · split
    · exact unlock _ (clear _ ended)
    · exact unlock _ ended
  · split
    · exact staging _ (key _ _ _ ended)
    · exact staging _ (damage _ _ _ ended)
  · split
    · exact key _ _ _ ended
    · exact damage _ _ _ ended
  · split
    · exact region _ _ _ ended
    · exact ended
  · split
    · exact closed _ ended
    · exact ended
  · exact ended
  · exact ended

theorem State.tablesSound_endJob {s : State} (a : Active) (o : JobOutcome) (g : Nat) (h : s.tablesSound) :
    (s.endJob a o g).tablesSound :=
  State.endJob_keeps a o g (State.tablesSound_congr (State.tablesSound_outcome h _ _ _ _) rfl rfl rfl rfl rfl)
    (fun _ hx => State.tablesSound_publishWaiting hx) (fun _ hx => hx) (fun _ _ _ hx => hx)
    (fun _ _ _ hx => State.tablesSound_raise _ hx) (fun _ hx => hx) (fun _ _ _ hx => hx) (fun _ hx => hx)

theorem State.tablesSound_judgeKey {s : State} (slot : Nat) (blocks : List (List Byte)) (h : s.tablesSound) :
    (s.judgeKey slot blocks).tablesSound := by
  unfold State.judgeKey
  dsimp only
  split
  · exact h
  split
  · exact h
  split
  · exact State.tablesSound_raise _ h
  · split
    · exact State.tablesSound_raise _ h
    · exact h

theorem State.tablesSound_runs {s u : State} (h : s.Runs u) (hs : s.tablesSound) : u.tablesSound := by
  induction h with
  | done => exact hs
  | ends o g _ _ _ ih => exact ih (State.tablesSound_endJob _ o g hs)
  | raises r _ ih => exact ih (State.tablesSound_raise r hs)
  | judgesKey slot blocks _ ih => exact ih (State.tablesSound_judgeKey slot blocks hs)
  | scrubs _ _ room _ ih => exact ih (State.tablesSound_queueJob _ room hs)
  | tallies x _ ih =>
    obtain ⟨w, t, c, m, len, n, i, cs, ms, counts, ts⟩ := hs
    obtain ⟨t', ts'⟩ := tallyCorrection_bounds _ x t ts
    exact ih ⟨w, t', c, m, len, n, i, cs, ms, counts, ts'⟩
  | goesOn _ _ _ ih | appends _ _ _ _ ih | fills _ _ ih | regions _ _ _ ih | flash _ _ ih => exact ih hs

theorem State.tablesSound_begun {s : State} {j : Job} {d : JobData} (h : s.tablesSound) : (s.begun j d).tablesSound := by
  unfold State.begun
  split <;> exact h

theorem State.tablesSound_judged {s u : State} {r : Result} (h : s.Judged u r) (hs : s.tablesSound) : u.tablesSound := by
  have ⟨w, t, c, m, len, n, i, cs, ms, counts, ts⟩ := hs
  cases h with
  | reset =>
    have cleared : State.tablesSound { s with
        frame0 := s.frame0.resetSession, frame1 := s.frame1.resetSession, history := s.history.clear
        staging := s.staging.resetSession, watches := List.replicate 4 Watch.off
        counters := List.replicate 10 CounterSet.zero } := by
      refine ⟨w, t, List.length_replicate .., List.length_replicate .., len, n, i, fun c hc => ?_, fun w hw => ?_, counts, ts⟩
      · rw [List.eq_of_mem_replicate hc]; exact ⟨Nat.zero_le _, Nat.zero_le _, Nat.zero_le _⟩
      · rw [List.eq_of_mem_replicate hw]; exact Nat.zero_le _
    unfold judgeResetSession
    obtain e | ⟨i, -, -, -, e⟩ := State.discardWaiting_cases _ <;> rw [e]
    · exact cleared
    · exact State.tablesSound_discardFrame i cleared
  | frameOpen | zones | frameAbandon => exact State.tablesSound_congr hs (by simp) (by simp) (by simp) (by simp) (by simp)
  | frameClose => exact State.tablesSound_congr hs (by simp) (by simp) (by simp) (by simp) (by simp)
  | rollback => unfold State.popHistory; split <;> exact hs
  | watch k zero =>
    refine ⟨w, t, c, (List.length_set ..).trans m, len, n, i, cs, fun x hx => ?_, counts, ts⟩
    obtain hx | rfl := List.mem_or_eq_of_mem_set hx
    · exact ms x hx
    · rw [zero]; exact Nat.zero_le _
  | job room | keyStore _ room | keyErase _ room => exact State.tablesSound_queueJob _ (by exact room) hs
  | closeOutIndex le => exact ⟨w, t, c, m, len, n, le, cs, ms, counts, ts⟩
  | closeOut tag none =>
    refine State.tablesSound_queueJob _ ?_ ⟨w, t, c, m, len, n, Nat.zero_le _, cs, ms, counts, ts⟩
    show decide (4 ≤ s.seq.waiting.length) = false
    rw [none]
    rfl
  | _ => exact hs

theorem State.tablesSound_charge {s : State} (w : Window) {f : CounterSet → CounterSet}
    (hf : f ∈ [CounterSet.addRead, CounterSet.addWrite, CounterSet.addWithheld]) (h : s.tablesSound) :
    (s.charge w f).tablesSound := by
  obtain ⟨w', t, c, m, len, n, i, cs, ms, counts, ts⟩ := h
  refine ⟨w', t, (modifyAt_length _ _ _).trans c, m, len, n, i,
    modifyAt_forall (p := fun c : CounterSet => c.reads ≤ 65535 ∧ c.writes ≤ 65535 ∧ c.withheld ≤ 65535) ?_ _ _ cs, ms, counts, ts⟩
  rintro c ⟨reads, writes, withheld⟩
  simp only [List.mem_cons, List.not_mem_nil, or_false] at hf
  obtain rfl | rfl | rfl := hf
  · exact ⟨satSucc_le reads, writes, withheld⟩
  · exact ⟨reads, satSucc_le writes, withheld⟩
  · exact ⟨reads, writes, satSucc_le withheld⟩

theorem State.tablesSound_countWatches {s : State} (x : Txn) (h : s.tablesSound) : (s.countWatches x).tablesSound := by
  obtain ⟨w', t, c, m, len, n, i, cs, ms, counts, ts⟩ := h
  refine ⟨w', t, c, (List.length_map ..).trans m, len, n, i, cs, fun w hw => ?_, counts, ts⟩
  obtain ⟨v, hv, rfl⟩ := List.mem_map.1 hw
  unfold Watch.countTxn
  split
  · exact satSucc_le (ms v hv)
  · exact ms v hv

theorem State.tablesSound_releasePanel {s : State} (h : s.tablesSound) : s.releasePanel.tablesSound := by
  unfold State.releasePanel
  split
  · exact State.tablesSound_publishWaiting h
  · exact h

theorem State.tablesSound_laneReset {s : State} (taken : Bool) (h : s.tablesSound) : (s.laneReset taken).tablesSound := by
  have dropped : (s.dropTxn taken).tablesSound :=
    State.dropTxn_keeps taken (fun t _ _ hx => by rw [State.flashTakes_eq]; exact hx)
      (fun _ _ hx => by rw [State.forgetProfile_eq]; exact hx) h
  exact State.tablesSound_releasePanel dropped

theorem State.tablesSound_reset : State.reset.tablesSound := by
  refine ⟨Nat.zero_le _, Nat.zero_le _, rfl, rfl, rfl, by decide, by decide, ?_, ?_, ?_, nofun⟩ <;> decide

/-- Every part keeps the tables in their sizes. The load queues the one SCAN, and none waits before it. -/
theorem State.tablesSound_parts : Parts (fun _ => True) State.tablesSound where
  powerOn {s} i _ _ := by
    have congr : ∀ {x u : State}, x.tablesSound ∧ x.seq.waiting = [] → u.seq = x.seq → u.counters = x.counters →
        u.watches = x.watches → u.intake = x.intake → u.tablesSound ∧ u.seq.waiting = [] := by
      rintro x u ⟨h, hw⟩ e c m n
      exact ⟨State.tablesSound_congr h (by rw [e]) (by rw [e]) c m n, by rw [e]; exact hw⟩
    refine State.powerOn_keeps (L := fun x => x.tablesSound ∧ x.seq.waiting = []) ⟨State.tablesSound_reset, rfl⟩
      (fun _ _ _ _ => ⟨State.tablesSound_reset, rfl⟩) (fun x hx => ?_) (fun x r hx => ?_) (fun x l m hx => ?_)
      (fun x k b hx => ?_) (fun x l m hx => ?_) (fun _ _ hx => hx) (fun _ hx => hx.1) (fun x hx => ?_)
    · exact congr hx (State.raise_seq _ _) (State.raise_counters _ _) (State.raise_watches _ _) (State.raise_intake _ _)
    · exact congr hx (State.raise_seq _ _) (State.raise_counters _ _) (State.raise_watches _ _) (State.raise_intake _ _)
    · unfold State.loadGrid
      split
      · rw [State.resume_eq]; exact congr hx rfl rfl rfl rfl
      · exact hx
    · rw [State.loadKey_eq]; exact congr hx rfl rfl rfl rfl
    · rw [State.loadRegion_eq]; exact congr hx rfl rfl rfl rfl
    · refine State.startDue_keeps (fun _ _ _ _ _ hw _ hs => State.tablesSound_begun ?_)
        (fun _ _ run hs => State.tablesSound_runs run hs) (State.tablesSound_queueJob _ ?_ hx.1)
      · obtain ⟨w, rest⟩ := hs
        rw [hw] at w
        exact ⟨(Nat.le_succ _).trans w, rest⟩
      · show decide (4 ≤ x.seq.waiting.length) = false
        rw [hx.2]
        rfl
  powerLoss _ _ _ := State.tablesSound_reset
  laneReset taken _ _ h := State.tablesSound_laneReset taken h
  resetLine _ h := h
  pfwLine _ h := h
  flashTimer h := h
  tick h := h
  lapsed _ _ h := h
  parks _ room h := State.tablesSound_queueJob _ room h
  raise r h := State.tablesSound_raise r h
  withdraw h := h
  select {s} c a _ _ h := by
    obtain ⟨t, -, ⟨-, e⟩ | ⟨-, _, _, e⟩⟩ := s.select_cases c a <;> rw [e] <;> exact h
  passes hp h := by
    obtain rfl | ⟨_, _, _, _, _, _, _, _, _, rfl⟩ := hp <;> exact h
  ignored _ _ h := h
  released h := State.tablesSound_releasePanel h
  charge w _ hf h := State.tablesSound_charge w hf h
  watches t h := State.tablesSound_countWatches t h
  shadow _ h := h
  forget a h := by rw [State.forgetProfile_eq]; exact h
  takes t h := by rw [State.flashTakes_eq]; exact h
  draw h := h
  note tag r h := by
    obtain ⟨w, t, c, m, len, n, i, rest⟩ := h
    exact ⟨w, t, c, m, len, Nat.mod_lt _ (by decide), i, rest⟩
  judged hj h := State.tablesSound_judged hj h
  begun _ hw _ h := by
    obtain ⟨w, rest⟩ := h
    rw [hw] at w
    exact State.tablesSound_begun ⟨(Nat.le_succ _).trans w, rest⟩
  runs run h := State.tablesSound_runs run h
  takeFrame h := State.tablesSound_takeFrame h
  endComputing h := State.tablesSound_endComputing h
  publishWaiting h := State.tablesSound_publishWaiting h
  begins _ _ _ _ _ h := h

/-- Settles O9. -/
theorem stepsKeepTheTablesBounded : Obligations.StepsKeepTheTablesBounded :=
  fun _ _ hs h => State.tablesSound_parts.kept.step (fun _ _ h => h) (fun _ h => h) hs h

end Sys2Proof.Machine
end

section
/-! The shape of the grid, the frames, the history and the class map (R39, R44, R80, R89, R90): the statement O10. -/

namespace Sys2Proof.Machine

/-! ## Lists of codes -/

theorem putAt_length {α : Type} (l : List α) (ps : List (Nat × α)) : (putAt l ps).length = l.length := by
  induction ps generalizing l with
  | nil => rfl
  | cons p t ih => rw [putAt, ih, List.length_set]

theorem putAt_forall {α : Type} {p : α → Prop} {l : List α} {ps : List (Nat × α)} (hl : ∀ x ∈ l, p x)
    (hp : ∀ x ∈ ps, p x.2) : ∀ x ∈ putAt l ps, p x := by
  induction ps generalizing l with
  | nil => exact hl
  | cons q t ih =>
    obtain ⟨hq, ht⟩ := List.forall_mem_cons.1 hp
    refine ih (fun x hx => ?_) ht
    obtain hx | rfl := List.mem_or_eq_of_mem_set hx
    · exact hl x hx
    · exact hq

theorem pickAt_forall {α : Type} {p : α → Prop} {l : List α} {fill : α} (is : List Nat) (hl : ∀ x ∈ l, p x) (hf : p fill) :
    ∀ x ∈ pickAt l fill is, p x := by
  intro x hx
  obtain ⟨i, -, rfl⟩ := List.mem_map.1 hx
  rw [List.getD_eq_getElem?_getD]
  cases h : l[i]? with
  | none => exact hf
  | some y => exact hl y (List.mem_of_getElem? h)

theorem unle_lt (l : List Byte) : unle l < 256 ^ l.length := by
  induction l with
  | nil => exact Nat.one_pos
  | cons b t ih =>
    rw [unle, List.length_cons, Nat.pow_succ]
    have := b.isLt
    omega

theorem fieldAt_lt (l : List Byte) (off n : Nat) : fieldAt l off n < 256 ^ n :=
  (unle_lt _).trans_le (Nat.pow_le_pow_right (by decide) (by simp [slice]))

theorem codeInRange_zero : codeInRange 0 := ⟨by decide, by decide⟩

theorem codeInRange_signedByte (b : Byte) : codeInRange (signedByte b) := by
  unfold codeInRange signedByte
  have lo := BitVec.le_toInt b
  have hi := BitVec.toInt_lt (x := b)
  norm_num at lo hi
  omega

theorem codeInRange_clampByte (c : Int) : codeInRange (clampByte c) := by
  unfold codeInRange clampByte
  split_ifs <;> omega

/-- A zone's new code lies in the range its old one lies in (R80). -/
theorem codeInRange_publishZone {c : Int} (r : ZoneResult) (h : codeInRange c) : codeInRange (publishZone c r).1 := by
  unfold codeInRange at *
  unfold publishZone
  split
  · exact h
  · exact h
  · split_ifs <;> dsimp only <;> omega

theorem codeInRange_codeOrMark {o : Option Int} (h : ∀ c, o = some c → codeInRange c) : codeInRange (codeOrMark o).1 := by
  cases o with
  | none => exact codeInRange_zero
  | some c => exact h c rfl

/-- The codes of a publish lie in their range. -/
theorem publishedCodes_inRange {codes : List Int} (h : ∀ c ∈ codes, codeInRange c) (rs : List ZoneResult) :
    ∀ c ∈ (List.zipWith publishZone codes rs).map Prod.fst, codeInRange c := by
  induction codes generalizing rs with
  | nil => exact nofun
  | cons c t ih =>
    cases rs with
    | nil => exact nofun
    | cons r rs =>
      obtain ⟨hc, ht⟩ := List.forall_mem_cons.1 h
      exact List.forall_mem_cons.2 ⟨codeInRange_publishZone r hc, ih ht rs⟩

/-! ## The grid -/

/-- A grid with other codes and marks of the same number and a new generation is sound where a generation is left. -/
theorem Grid.sound_rewritten {g : Grid} {codes : List Int} {marks : List Bool} (h : g.sound) (fresh : g.exhausted = false)
    (hc : codes.length = g.codes.length) (hm : marks.length = g.marks.length) (range : ∀ c ∈ codes, codeInRange c) :
    Grid.sound (Grid.newGeneration { g with codes := codes, marks := marks }) := by
  obtain ⟨geo, lc, lm, -, width, shift, -, -⟩ := h
  have room : ¬genMax ≤ g.genMark := by rwa [Grid.exhausted, decide_eq_false_iff_not] at fresh
  exact ⟨geo, hc.trans lc, hm.trans lm, range, width, shift, le_rfl, Nat.succ_le_of_lt (not_le.1 room)⟩

/-- A rectangle inside the grid has at most 9 216 zones. -/
theorem Grid.rect_zones_le {g : Grid} {r : Rect} (h : g.sound) (inside : g.holdsRect r = true) : r.w * r.h ≤ 9216 := by
  obtain ⟨geo, -⟩ := h
  simp only [Grid.holdsRect, Bool.and_eq_true, decide_eq_true_eq] at inside
  obtain ⟨⟨-, cols⟩, rows⟩ := inside
  have bounds : g.cols ≤ 128 ∧ g.rows ≤ 72 := by
    unfold Grid.cols Grid.rows
    split at geo
    · simp_all
    · simp_all
  exact Nat.mul_le_mul (by omega : r.w ≤ 128) (by omega : r.h ≤ 72)

/-! ## The history -/

theorem keepTop_spec (p : Nat) (stack : List HistoryEntry) (n : Nat) :
    keepTop p stack n = [] ∨ ∃ m, m ≤ n ∧ keepTop p stack n = stack.take m ∧ fitsPush p (keepTop p stack n) = true := by
  induction n with
  | zero => exact .inl rfl
  | succ n ih =>
    unfold keepTop
    split
    · exact .inr ⟨n + 1, le_rfl, rfl, ‹_›⟩
    · obtain e | ⟨m, hm, e⟩ := ih
      · exact .inl e
      · exact .inr ⟨m, hm.trans (Nat.le_succ n), e⟩

/-- An entry pushed leaves the history within its bounds (R90). -/
theorem History.sound_push {h : History} {g : Grid} {e : HistoryEntry} (hh : h.sound g) (he : e.sound g)
    (small : e.payload ≤ 18432) : (h.push e).sound g := by
  obtain ⟨-, -, -, entries⟩ := hh
  unfold History.push
  obtain k | ⟨m, -, k, fits⟩ := keepTop_spec e.payload h.stack h.stack.length
  · simp only [k]
    refine ⟨Nat.succ_le_succ (Nat.zero_le 7), small, Nat.min_le_left _ _, ?_⟩
    exact List.forall_mem_cons.2 ⟨he, nofun⟩
  · simp only [fitsPush, Bool.and_eq_true, decide_eq_true_eq] at fits
    refine ⟨Nat.succ_le_of_lt fits.1, ?_, Nat.min_le_left _ _, List.forall_mem_cons.2 ⟨he, fun x hx => ?_⟩⟩
    · exact (Nat.add_comm _ _).trans_le fits.2
    · rw [k] at hx
      exact entries x (List.mem_of_mem_take hx)

theorem History.sound_clear {h : History} {g g' : Grid} (hh : h.sound g) : h.clear.sound g' := by
  obtain ⟨-, -, trunc, -⟩ := hh
  exact ⟨Nat.zero_le _, Nat.zero_le _, trunc, nofun⟩

/-! ## The frames -/

theorem State.gridSound_iff (s : State) :
    s.gridSound ↔ s.grid.sound ∧ (∀ i, (s.frame i).sound s.grid) ∧ s.history.sound s.grid ∧
      s.classMap.length = s.grid.zones := by
  unfold State.gridSound
  rw [Bool.forall_bool]
  exact ⟨fun ⟨g, f0, f1, h, m⟩ => ⟨g, ⟨f0, f1⟩, h, m⟩, fun ⟨g, ⟨f0, f1⟩, h, m⟩ => ⟨g, f0, f1, h, m⟩⟩

theorem State.gridSound_congr {s u : State} (h : s.gridSound) (grid : u.grid = s.grid) (frame0 : u.frame0 = s.frame0)
    (frame1 : u.frame1 = s.frame1) (history : u.history = s.history) (classMap : u.classMap = s.classMap) : u.gridSound := by
  unfold State.gridSound
  rw [grid, frame0, frame1, history, classMap]
  exact h

theorem State.gridSound_setFrame {s : State} (i : Bool) {f : Frame} (hf : f.sound s.grid) (h : s.gridSound) :
    (s.setFrame i f).gridSound := by
  obtain ⟨g, f0, f1, hist, m⟩ := h
  cases i with
  | false => exact ⟨g, hf, f1, hist, m⟩
  | true => exact ⟨g, f0, hf, hist, m⟩

/-- A buffer that is not FREE holds its rectangle and a slot to a zone. -/
theorem State.gridSound_busyFrame {s : State} {i : Bool} {st : FrameState} (h : s.gridSound) (hi : s.frameIn st = some i)
    (busy : st ≠ .free) :
    s.grid.holdsRect (s.frame i).rect = true ∧ (s.frame i).slots.length = (s.frame i).rect.w * (s.frame i).rect.h := by
  obtain ⟨-, frames, -⟩ := s.gridSound_iff.1 h
  have free : ¬(s.frame i).state = .free := fun e => busy ((State.frameIn_some hi).symm.trans e)
  exact (frames i).resolve_left free

theorem State.gridSound_takeFrame {s : State} (h : s.gridSound) : s.takeFrame.gridSound := by
  obtain ⟨i, -, hi, e⟩ | ⟨e, -⟩ := s.takeFrame_cases <;> rw [e]
  · exact State.gridSound_setFrame i (f := { s.frame i with state := .solving })
      (.inr (State.gridSound_busyFrame h hi nofun)) h
  · exact h

theorem State.gridSound_discardFrame {s : State} (i : Bool) (h : s.gridSound) : (s.discardFrame i).gridSound :=
  State.gridSound_setFrame i (f := Frame.empty) (.inl rfl) h

/-- A publish keeps the grid's shape: its codes are clamped, and its entry fits the history. -/
theorem State.gridSound_publishFrame {s : State} {i : Bool} (hi : s.frameIn .solving = some i) (fresh : s.grid.exhausted = false)
    (h : s.gridSound) : (s.publishFrame i).gridSound := by
  obtain ⟨inside, -⟩ := State.gridSound_busyFrame h hi nofun
  obtain ⟨grid, frames, hist, map⟩ := s.gridSound_iff.1 h
  have ⟨_, _, _, range, _⟩ := grid
  have zones := Grid.rect_zones_le grid inside
  have old := pickAt_forall (s.grid.rectIndexes (s.frame i).plane (s.frame i).rect) range codeInRange_zero
  have entry : HistoryEntry.sound
      { plane := (s.frame i).plane, rect := (s.frame i).rect, tag := (s.frame i).tag,
        codes := pickAt s.grid.codes 0 (s.grid.rectIndexes (s.frame i).plane (s.frame i).rect),
        marks := pickAt s.grid.marks false (s.grid.rectIndexes (s.frame i).plane (s.frame i).rect) } s.grid :=
    ⟨inside, by simp [pickAt, Grid.rectIndexes], by simp [pickAt, Grid.rectIndexes], old⟩
  have pushed := History.sound_push hist entry (by simp only [HistoryEntry.payload, ceilDiv]; omega)
  have written : (s.publishFrame i).grid.sound :=
    Grid.sound_rewritten grid fresh (putAt_length _ _) (putAt_length _ _)
      (putAt_forall range fun x hx => publishedCodes_inRange old s.engine.results _ (List.of_mem_zip hx).2)
  refine (State.gridSound_iff _).2 ⟨written, fun j => ?_, pushed, ?_⟩
  · by_cases e : j = i
    · subst e
      exact .inl (by cases j <;> rfl)
    · have other : (s.publishFrame i).frame j = s.frame j := by
        obtain rfl : j = !i := Bool.eq_not_of_ne e
        cases i <;> rfl
      rw [other]
      exact frames j
  · exact (putAt_length _ _).trans (List.length_replicate ..)

theorem State.gridSound_publishWaiting {s : State} (h : s.gridSound) : s.publishWaiting.gridSound := by
  obtain e | ⟨i, -, -, hi, ⟨-, e⟩ | ⟨fresh, e⟩⟩ := s.publishWaiting_cases <;> rw [e]
  · exact h
  · exact State.gridSound_takeFrame (State.gridSound_discardFrame i h)
  · exact State.gridSound_takeFrame (State.gridSound_publishFrame hi fresh h)

theorem State.gridSound_endComputing {s : State} (h : s.gridSound) : s.endComputing.gridSound := by
  obtain e | ⟨i, -, -, ⟨-, e⟩ | ⟨-, e⟩⟩ := s.endComputing_cases <;> rw [e]
  · exact h
  · exact State.gridSound_takeFrame (State.gridSound_discardFrame i h)
  · exact State.gridSound_publishWaiting h

/-- A rollback brings back codes of the range (R93). -/
theorem State.gridSound_popHistory {s : State} (fresh : s.grid.exhausted = false) (h : s.gridSound) : s.popHistory.gridSound := by
  obtain ⟨grid, f0, f1, ⟨len, total, trunc, entries⟩, map⟩ := h
  unfold State.popHistory
  split
  · exact ⟨grid, f0, f1, ⟨len, total, trunc, entries⟩, map⟩
  · rename_i e t stack
    rw [stack] at len total entries
    obtain ⟨⟨-, -, -, codes⟩, rest⟩ := List.forall_mem_cons.1 entries
    have ⟨_, _, _, range, _⟩ := grid
    exact ⟨Grid.sound_rewritten grid fresh (putAt_length _ _) (putAt_length _ _)
        (putAt_forall range fun x hx => codes _ (List.of_mem_zip hx).2), f0, f1,
      ⟨(Nat.le_succ _).trans len, (Nat.le_add_left _ _).trans total, trunc, rest⟩, map⟩

theorem State.gridSound_raise {s : State} (r : Report) (h : s.gridSound) : (s.raise r).gridSound :=
  State.gridSound_congr h (by simp) (by simp) (by simp) (by simp) (by simp)

theorem State.gridSound_endJob {s : State} (a : Active) (o : JobOutcome) (g : Nat) (h : s.gridSound) :
    (s.endJob a o g).gridSound :=
  State.endJob_keeps a o g h (fun _ hx => State.gridSound_publishWaiting hx)
    (fun _ ⟨g, f0, f1, hist, m⟩ => ⟨g, f0, f1, History.sound_clear hist, m⟩) (fun _ _ _ hx => hx)
    (fun _ _ _ hx => State.gridSound_raise _ hx) (fun _ hx => hx) (fun _ _ _ hx => hx) (fun _ hx => hx)

theorem State.gridSound_judgeKey {s : State} (slot : Nat) (blocks : List (List Byte)) (h : s.gridSound) :
    (s.judgeKey slot blocks).gridSound := by
  unfold State.judgeKey
  dsimp only
  split
  · exact h
  split
  · exact h
  split
  · exact State.gridSound_raise _ h
  · split
    · exact State.gridSound_raise _ h
    · exact h

theorem State.gridSound_runs {s u : State} (h : s.Runs u) (hs : s.gridSound) : u.gridSound := by
  induction h with
  | done => exact hs
  | ends o g _ _ _ ih => exact ih (State.gridSound_endJob _ o g hs)
  | raises r _ ih => exact ih (State.gridSound_raise r hs)
  | judgesKey slot blocks _ ih => exact ih (State.gridSound_judgeKey slot blocks hs)
  | goesOn _ _ _ ih | appends _ _ _ _ ih | tallies _ _ ih | fills _ _ ih | scrubs _ _ _ _ ih | regions _ _ _ ih
  | flash _ _ ih => exact ih hs

theorem State.gridSound_begun {s : State} {j : Job} {d : JobData} (h : s.gridSound) : (s.begun j d).gridSound := by
  unfold State.begun
  split <;> exact h

theorem State.gridSound_judged {s u : State} {r : Result} (h : s.Judged u r) (hs : s.gridSound) : u.gridSound := by
  have ⟨grid, f0, f1, hist, map⟩ := hs
  cases h with
  | reset =>
    have frame : ∀ f : Frame, f.sound s.grid → f.resetSession.sound s.grid := by
      intro f hf
      unfold Frame.resetSession
      split
      · exact hf
      · exact .inl rfl
      · exact .inl rfl
      · exact hf
    have cleared : State.gridSound { s with
        frame0 := s.frame0.resetSession, frame1 := s.frame1.resetSession, history := s.history.clear
        staging := s.staging.resetSession, watches := List.replicate 4 Watch.off
        counters := List.replicate 10 CounterSet.zero } :=
      ⟨grid, frame _ f0, frame _ f1, History.sound_clear hist, map⟩
    unfold judgeResetSession
    obtain e | ⟨i, -, -, -, e⟩ := State.discardWaiting_cases _ <;> rw [e]
    · exact cleared
    · exact State.gridSound_discardFrame i cleared
  | @geometry x y hx hy fresh free _ =>
    simp only [State.framesFree, Bool.and_eq_true, decide_eq_true_eq] at free
    obtain ⟨-, -, -, -, width, shift, -, -⟩ := grid
    have room : ¬genMax ≤ s.grid.genMark := by rwa [Grid.exhausted, decide_eq_false_iff_not] at fresh
    refine ⟨⟨⟨hx.1, hx.2, hy.1, hy.2⟩, List.length_replicate .., List.length_replicate .., fun c hc => ?_, width, shift, le_rfl,
      Nat.succ_le_of_lt (not_le.1 room)⟩, .inl free.1, .inl free.2, History.sound_clear hist, List.length_replicate ..⟩
    rw [List.eq_of_mem_replicate hc]
    exact codeInRange_zero
  | format _ hw hsh fresh =>
    obtain ⟨geo, lc, lm, range, -, -, -, -⟩ := grid
    have room : ¬genMax ≤ s.grid.genMark := by rwa [Grid.exhausted, decide_eq_false_iff_not] at fresh
    exact ⟨⟨geo, lc, lm, range, hw, hsh, le_rfl, Nat.succ_le_of_lt (not_le.1 room)⟩, f0, f1, hist, map⟩
  | plane p x => cases p <;> exact hs
  | frameOpen _ _ _ _ inside slots => exact State.gridSound_setFrame _ (.inr ⟨inside, slots⟩) hs
  | zones _ filling same =>
    obtain ⟨inside, slots⟩ := State.gridSound_busyFrame hs filling nofun
    exact State.gridSound_setFrame _ (.inr ⟨inside, same.trans slots⟩) hs
  | frameClose n filling =>
    exact State.gridSound_setFrame _ (.inr (by rw [State.takeFrame_grid]; exact State.gridSound_busyFrame hs filling nofun))
      (State.gridSound_takeFrame hs)
  | frameAbandon => exact State.gridSound_setFrame _ (.inl rfl) hs
  | rollback _ fresh => exact State.gridSound_popHistory fresh hs
  | _ => exact hs

/-! ## Resume -/

/-- The generations of a record are numbers of 32 bits. -/
def CommitRecord.gensBounded (r : CommitRecord) : Prop := r.uniGen ≤ genMax ∧ r.parkGen ≤ genMax

theorem ringRecord_gensBounded {b : List Byte} {r : CommitRecord} (h : ringRecord b = some r) : r.gensBounded := by
  unfold ringRecord at h
  dsimp only at h
  split at h
  · cases h
    exact ⟨Nat.le_of_lt_succ (fieldAt_lt _ 8 4), Nat.le_of_lt_succ (fieldAt_lt _ 22 4)⟩
  · cases h

theorem latestOf_mem {l : List (Nat × Option CommitRecord)} {x : Latest} (h : latestOf l = some x) :
    (x.slot, some x.record) ∈ l := by
  induction l generalizing x with
  | nil => cases h
  | cons p t ih =>
    obtain ⟨i, r | r⟩ := p
    · exact List.mem_cons_of_mem _ (ih h)
    · unfold latestOf at h
      split at h
      · cases h
        exact List.mem_cons_self
      · split at h
        · cases h
          exact List.mem_cons_self
        · cases h
          exact List.mem_cons_of_mem _ (ih ‹_›)

theorem latestOf_gensBounded {m : Memory} {l : Layout} {x : Latest} (h : latestOf (ringSlots m l) = some x) :
    x.record.gensBounded := by
  obtain ⟨i, -, e⟩ := List.mem_map.1 (latestOf_mem h)
  exact ringRecord_gensBounded (Prod.mk.inj e).2

/-- What resume gives, but for the generation mark: a sound grid whose generation is a number of 32 bits. -/
def Grid.soundWithoutMark (g : Grid) : Prop :=
  Grid.sound { g with genMark := g.generation } ∧ g.generation ≤ genMax

theorem Grid.soundWithoutMark_empty : Grid.empty.soundWithoutMark :=
  ⟨⟨trivial, rfl, rfl, nofun, .inl rfl, Nat.zero_le _, le_rfl, Nat.zero_le _⟩, Nat.zero_le _⟩

theorem readPark_sound {r : CommitRecord} {m : Memory} {base : Nat} {x : Resumed} (hr : r.gensBounded)
    (h : readPark r m base = some x) : x.grid.soundWithoutMark := by
  unfold readPark at h
  split at h
  · split at h
    · rename_i hd pl _ _ sound
      cases h
      simp only [parkHeaderSound, Bool.and_eq_true, decide_eq_true_eq] at sound
      obtain ⟨⟨⟨⟨-, cols⟩, rows⟩, width⟩, shift⟩ := sound.1
      refine ⟨⟨⟨cols.1, cols.2, rows.1, rows.2⟩, by simp [parkGrid, Grid.zones, Grid.cols, Grid.rows],
        by simp [parkGrid, Grid.zones, Grid.cols, Grid.rows], fun c hc => ?_, width, shift, le_rfl, hr.2⟩, hr.2⟩
      obtain ⟨z, hz, rfl⟩ := List.mem_map.1 hc
      obtain ⟨k, -, rfl⟩ := List.mem_map.1 hz
      refine codeInRange_codeOrMark fun c hc => ?_
      split at hc
      · split at hc
        · cases hc
        · cases hc
          exact codeInRange_signedByte _
      · cases hc
    · cases h
  · cases h

theorem readPanel_sound {r : CommitRecord} {m : Memory} {l : Layout} {x : Resumed} (hr : r.gensBounded)
    (h : readPanel r m l = some x) : x.grid.soundWithoutMark := by
  unfold readPanel at h
  dsimp only at h
  split at h
  · rename_i sound
    cases h
    simp only [CommitRecord.uniformitySound, Bool.and_eq_true, decide_eq_true_eq] at sound
    obtain ⟨⟨⟨⟨cols, rows⟩, width⟩, shift⟩, -⟩ := sound.1.1.1
    refine ⟨⟨⟨cols.1, cols.2, rows.1, rows.2⟩, by simp [Grid.zones, Grid.cols, Grid.rows],
      by simp [Grid.zones, Grid.cols, Grid.rows], fun c hc => ?_, width, shift, le_rfl, hr.1⟩, hr.1⟩
    obtain ⟨z, hz, rfl⟩ := List.mem_map.1 hc
    obtain ⟨k, -, rfl⟩ := List.mem_map.1 hz
    refine codeInRange_codeOrMark fun c hc => ?_
    split at hc
    · cases hc
      exact codeInRange_clampByte _
    · cases hc
  · cases h

theorem resumeFrom_sound {r : CommitRecord} (m : Memory) (l : Layout) (hr : r.gensBounded) :
    (resumeFrom r m l).grid.soundWithoutMark := by
  have panel : (resumePanel r m l).grid.soundWithoutMark := by
    unfold resumePanel
    split
    · split
      · exact readPanel_sound hr ‹_›
      · exact Grid.soundWithoutMark_empty
    · exact Grid.soundWithoutMark_empty
  unfold resumeFrom
  split
  · split
    · exact readPark_sound hr ‹_›
    · exact panel
  · exact panel

/-! ## The start-up load -/

/-- What the load keeps besides the shape: the latest record's generations, the frames and the history as at power-on. -/
def State.loadSound (s : State) : Prop :=
  s.gridSound ∧ (∀ x, s.latest = some x → x.record.gensBounded) ∧ s.frame0.state = .free ∧ s.frame1.state = .free ∧
    s.history.stack = []

theorem State.gridSound_reset : State.reset.gridSound :=
  ⟨⟨trivial, rfl, rfl, nofun, .inl rfl, Nat.zero_le _, le_rfl, Nat.zero_le _⟩, .inl rfl, .inl rfl,
    ⟨Nat.zero_le _, Nat.zero_le _, Nat.zero_le _, nofun⟩, rfl⟩

theorem State.loadSound_congr {s u : State} (h : s.loadSound) (grid : u.grid = s.grid) (frame0 : u.frame0 = s.frame0)
    (frame1 : u.frame1 = s.frame1) (history : u.history = s.history) (classMap : u.classMap = s.classMap)
    (latest : u.latest = s.latest) : u.loadSound := by
  obtain ⟨shape, gens, rest⟩ := h
  refine ⟨State.gridSound_congr shape grid frame0 frame1 history classMap, by rw [latest]; exact gens, ?_⟩
  rw [frame0, frame1, history]
  exact rest

theorem State.resumeMark_le {s : State} (gen : s.grid.generation ≤ genMax)
    (gens : ∀ x, s.latest = some x → x.record.gensBounded) : s.resumeMark ≤ genMax := by
  unfold State.resumeMark State.uniGen? State.parkGen?
  refine max_le gen ?_
  split
  · rename_i x hx
    obtain ⟨uni, park⟩ := gens x hx
    refine max_le ?_ ?_ <;> split
    · exact uni
    · exact Nat.zero_le _
    · exact park
    · exact Nat.zero_le _
  · exact Nat.zero_le _

theorem State.loadSound_resume {s : State} (l : Layout) (m : Memory) (h : s.loadSound) : (s.resume l m).loadSound := by
  have ⟨_, gens, free0, free1, stack⟩ := h
  cases hx : s.latest with
  | none => simpa only [State.resume, hx] using h
  | some x =>
    obtain ⟨sound, gen⟩ := resumeFrom_sound m l (gens x hx)
    have latest : (s.resume l m).latest = s.latest := by rw [State.resume_eq]
    have mark := State.resumeMark_le (s := { s with grid := (resumeFrom x.record m l).grid }) gen gens
    have grid : (s.resume l m).grid = { (resumeFrom x.record m l).grid with
        genMark := State.resumeMark { s with grid := (resumeFrom x.record m l).grid } } := by
      simp only [State.resume, hx]
      rw [State.raiseAll_eq]
      simp only [State.resumeMark, State.uniGen?, State.parkGen?, hx]
    have map : (s.resume l m).classMap = List.replicate (resumeFrom x.record m l).grid.zones none := by
      simp only [State.resume, hx]
    have frame0 : (s.resume l m).frame0 = s.frame0 := by rw [State.resume_eq]
    have frame1 : (s.resume l m).frame1 = s.frame1 := by rw [State.resume_eq]
    have hist : (s.resume l m).history = s.history := by rw [State.resume_eq]
    obtain ⟨⟨_, _, _, ⟨_, _, trunc, _⟩, _⟩, -⟩ := h
    obtain ⟨geo, lc, lm, range, width, shift, -, -⟩ := sound
    refine ⟨⟨?_, .inl (frame0 ▸ free0), .inl (frame1 ▸ free1), ?_, ?_⟩, latest ▸ gens, frame0 ▸ free0, frame1 ▸ free1,
      hist ▸ stack⟩
    · rw [grid]
      exact ⟨geo, lc, lm, range, width, shift, le_max_left _ _, mark⟩
    · rw [hist]
      unfold History.sound
      rw [stack]
      exact ⟨Nat.zero_le _, Nat.zero_le _, trunc, nofun⟩
    · rw [map, grid]
      exact List.length_replicate ..

theorem State.loadSound_reset {s : State} (lineMode : Bool) : (s.powerUp lineMode).loadSound :=
  ⟨State.gridSound_reset, nofun, rfl, rfl, rfl⟩

theorem State.gridSound_powerOn {s : State} (i : PowerOnInput) : (s.powerOn i).gridSound := by
  refine State.powerOn_keeps (L := State.loadSound) (State.loadSound_reset _)
    (fun l latest _ e => ⟨State.gridSound_reset, fun x hx => latestOf_gensBounded (e.symm.trans hx), rfl, rfl, rfl⟩)
    (fun x hx => ?_) (fun x r hx => ?_) (fun x l m hx => ?_) (fun x k b hx => ?_) (fun x l m hx => ?_)
    (fun _ _ hx => hx) (fun _ hx => hx.1) (fun x hx => ?_)
  · exact State.loadSound_congr hx (State.raise_grid _ _) (State.raise_frame0 _ _) (State.raise_frame1 _ _)
      (State.raise_history _ _) (State.raise_classMap _ _) (State.raise_latest _ _)
  · exact State.loadSound_congr hx (State.raise_grid _ _) (State.raise_frame0 _ _) (State.raise_frame1 _ _)
      (State.raise_history _ _) (State.raise_classMap _ _) (State.raise_latest _ _)
  · unfold State.loadGrid
    split
    · exact State.loadSound_resume l m hx
    · exact hx
  · rw [State.loadKey_eq]; exact hx
  · rw [State.loadRegion_eq]; exact hx
  · exact State.startDue_keeps (P := State.gridSound) (fun _ _ _ _ _ _ _ hs => State.gridSound_begun hs)
      (fun _ _ run hs => State.gridSound_runs run hs) hx.1

theorem State.gridSound_releasePanel {s : State} (h : s.gridSound) : s.releasePanel.gridSound := by
  unfold State.releasePanel
  split
  · exact State.gridSound_publishWaiting h
  · exact h

theorem State.gridSound_laneReset {s : State} (taken : Bool) (h : s.gridSound) : (s.laneReset taken).gridSound := by
  have dropped : (s.dropTxn taken).gridSound :=
    State.dropTxn_keeps taken (fun t _ _ hx => by rw [State.flashTakes_eq]; exact hx)
      (fun _ _ hx => by rw [State.forgetProfile_eq]; exact hx) h
  have frame : ∀ (f : Frame) (g : Grid), f.sound g → f.laneReset.sound g := by
    intro f g hf
    unfold Frame.laneReset
    split
    · exact .inl rfl
    · exact hf
  obtain ⟨grid, f0, f1, hist, map⟩ := dropped
  exact State.gridSound_releasePanel ⟨grid, frame _ _ f0, frame _ _ f1, hist, map⟩

/-- Every part keeps the shape. -/
theorem State.gridSound_parts : Parts (fun _ => True) State.gridSound where
  powerOn i _ _ := State.gridSound_powerOn i
  powerLoss _ _ _ := State.gridSound_reset
  laneReset taken _ _ h := State.gridSound_laneReset taken h
  resetLine _ h := h
  pfwLine _ h := h
  flashTimer h := h
  tick h := h
  lapsed _ _ h := h
  parks _ _ h := h
  raise r h := State.gridSound_raise r h
  withdraw h := h
  select {s} c a _ _ h := by
    obtain ⟨t, -, ⟨-, e⟩ | ⟨-, _, _, e⟩⟩ := s.select_cases c a <;> rw [e] <;> exact h
  passes hp h := by
    obtain rfl | ⟨_, _, _, _, _, _, _, _, _, rfl⟩ := hp <;> exact h
  ignored _ _ h := h
  released h := State.gridSound_releasePanel h
  charge _ _ _ h := h
  watches _ h := h
  shadow _ h := h
  forget a h := by rw [State.forgetProfile_eq]; exact h
  takes t h := by rw [State.flashTakes_eq]; exact h
  draw h := h
  note _ _ h := h
  judged hj h := State.gridSound_judged hj h
  begun _ _ _ h := State.gridSound_begun h
  runs run h := State.gridSound_runs run h
  takeFrame h := State.gridSound_takeFrame h
  endComputing h := State.gridSound_endComputing h
  publishWaiting h := State.gridSound_publishWaiting h
  begins _ _ _ _ _ h := h

/-- Settles O10. -/
theorem stepsKeepTheGridSound : Obligations.StepsKeepTheGridSound :=
  fun _ _ hs h => State.gridSound_parts.kept.step (fun _ _ h => h) (fun _ h => h) hs h

end Sys2Proof.Machine
end

section
/-! The Solve Engine with its frame (R54, R63, R68, R78) and the grid lock with its job (R45, R46): the statements O11 and O7. -/

namespace Sys2Proof.Machine

/-! ## The engine and the two buffers -/

theorem State.frame_ne_of_frameIn {s : State} {st : FrameState} (h : s.frameIn st = none) (i : Bool) : (s.frame i).state ≠ st := by
  unfold State.frameIn at h
  split at h
  · cases h
  split at h
  · cases h
  cases i <;> assumption

/-- The engine and the buffers agree; whether a waiting frame may still wait is apart. -/
def State.engineFits (s : State) : Prop :=
  (s.engine.state = .idle ↔ ∀ i, (s.frame i).state ≠ .solving) ∧
    (∀ i, (s.frame i).state ≠ .free → (s.frame (!i)).state ≠ (s.frame i).state) ∧
    ∀ i, (s.frame i).discard = true → (s.frame i).state = .solving

/-- A waiting frame waits for the grid lock or the panel read hold. -/
def State.waitsForGrid (s : State) : Prop := s.engine.state = .publishWait → s.gridFree = false

theorem State.engineSound_iff (s : State) : s.engineSound ↔ s.engineFits ∧ s.waitsForGrid := by
  have idle : s.anyFrame .solving = false ↔ ∀ i, (s.frame i).state ≠ .solving := by
    simp [State.anyFrame, State.frame, Bool.forall_bool]
  have apart : (∀ i, (s.frame i).state ≠ .free → (s.frame (!i)).state ≠ (s.frame i).state) ↔
      ¬(s.frame0.state = .solving ∧ s.frame1.state = .solving) ∧ ¬(s.frame0.state = .filling ∧ s.frame1.state = .filling) ∧
        ¬(s.frame0.state = .queued ∧ s.frame1.state = .queued) := by
    rw [Bool.forall_bool]
    show ((s.frame0.state ≠ .free → s.frame1.state ≠ s.frame0.state) ∧
      (s.frame1.state ≠ .free → s.frame0.state ≠ s.frame1.state)) ↔ _
    cases s.frame0.state <;> cases s.frame1.state <;> decide
  unfold State.engineSound State.engineFits State.waitsForGrid
  rw [idle, apart]
  have discard : (∀ i, (s.frame i).discard = true → (s.frame i).state = .solving) ↔
      (s.frame0.discard = true → s.frame0.state = .solving) ∧ (s.frame1.discard = true → s.frame1.state = .solving) :=
    Bool.forall_bool
  rw [discard]
  exact ⟨fun ⟨a, b, c, d, p, q, w⟩ => ⟨⟨a, ⟨b, c, d⟩, p, q⟩, w⟩, fun ⟨⟨a, ⟨b, c, d⟩, p, q⟩, w⟩ => ⟨a, b, c, d, p, q, w⟩⟩

/-- Another frame put into a buffer, with the engine that goes with it. -/
theorem State.engineFits_setFrame {s u : State} {i : Bool} {f : Frame} (h : s.engineFits) (same : u.frame i = f)
    (other : u.frame (!i) = s.frame (!i)) (apart : f.state ≠ .free → (s.frame (!i)).state ≠ f.state)
    (discard : f.discard = true → f.state = .solving)
    (engine : u.engine.state = .idle ↔ f.state ≠ .solving ∧ (s.frame (!i)).state ≠ .solving) : u.engineFits := by
  obtain ⟨-, -, disc⟩ := h
  have both : ∀ {p : Bool → Prop}, p i → p (!i) → ∀ j, p j := by
    intro p hi hn j
    cases i <;> cases j <;> assumption
  refine ⟨engine.trans ⟨fun ⟨hf, ho⟩ => ?_, fun h => ⟨?_, ?_⟩⟩, both ?_ ?_, both ?_ ?_⟩
  · exact both (same.symm ▸ hf) (other.symm ▸ ho)
  · exact same ▸ h i
  · exact other ▸ h (!i)
  · rw [same, other]
    exact apart
  · rw [Bool.not_not, same, other]
    intro hn e
    exact apart (by rw [e]; exact hn) e.symm
  · rw [same]
    exact discard
  · rw [other]
    exact disc _

theorem State.frame_not_solving {s : State} {i : Bool} (h : s.engineFits) (hi : s.frameIn .solving = some i) :
    (s.frame (!i)).state ≠ .solving := by
  obtain ⟨-, apart, -⟩ := h
  have e := State.frameIn_some hi
  intro ho
  exact apart i (by rw [e]; nofun) (ho.trans e.symm)

theorem State.engineFits_takeFrame {s : State} (h : s.engineFits) : s.takeFrame.engineFits := by
  obtain ⟨i, idle, -, e⟩ | ⟨e, -⟩ := s.takeFrame_cases <;> rw [e]
  · obtain ⟨engine, -⟩ := id h
    exact State.engineFits_setFrame (i := i) (f := { s.frame i with state := .solving }) h (s.setFrame_frame i _)
      (s.setFrame_other i _) (fun _ => engine.1 idle _) (fun _ => rfl) ⟨nofun, fun ⟨no, _⟩ => absurd rfl no⟩
  · exact h

/-- A buffer that is not SOLVING takes a frame that is not. -/
theorem State.engineFits_refilled {s : State} {i : Bool} {f : Frame} (h : s.engineFits) (was : (s.frame i).state ≠ .solving)
    (unsolved : f.state ≠ .solving) (apart : f.state ≠ .free → (s.frame (!i)).state ≠ f.state) (kept : f.discard = false) :
    (s.setFrame i f).engineFits := by
  obtain ⟨idle, -⟩ := id h
  refine State.engineFits_setFrame h (s.setFrame_frame i f) (s.setFrame_other i f) apart
    (fun e => absurd (kept.symm.trans e) nofun) ?_
  rw [State.setFrame_engine, idle]
  refine ⟨fun all => ⟨unsolved, all _⟩, fun ⟨_, other⟩ j => ?_⟩
  by_cases e : j = i
  · rw [e]
    exact was
  · rw [Bool.eq_not_of_ne e]
    exact other

/-- The frame that was solved leaves its buffer, and the engine is IDLE. -/
theorem State.engineFits_freed {s u : State} {i : Bool} (h : s.engineFits) (hi : s.frameIn .solving = some i)
    (same : u.frame i = Frame.empty) (other : u.frame (!i) = s.frame (!i)) (idle : u.engine.state = .idle) : u.engineFits :=
  State.engineFits_setFrame h same other (fun no => absurd rfl no) nofun
    ⟨fun _ => ⟨nofun, State.frame_not_solving h hi⟩, fun _ => idle⟩

theorem State.engineFits_discardFrame {s : State} {i : Bool} (h : s.engineFits) (hi : s.frameIn .solving = some i) :
    (s.discardFrame i).engineFits :=
  State.engineFits_freed h hi (by cases i <;> rfl) (by cases i <;> rfl) rfl

theorem State.engineFits_publishFrame {s : State} {i : Bool} (h : s.engineFits) (hi : s.frameIn .solving = some i) :
    (s.publishFrame i).engineFits :=
  State.engineFits_freed h hi (by cases i <;> rfl) (by cases i <;> rfl) rfl

/-- A taken frame is computed, and without one the engine stands. -/
theorem State.waitsForGrid_takeFrame {s : State} (h : s.waitsForGrid) : s.takeFrame.waitsForGrid := by
  obtain ⟨i, -, -, e⟩ | ⟨e, -⟩ := s.takeFrame_cases <;> rw [e]
  · exact nofun
  · exact h

theorem State.engineSound_takeFrame {s : State} (h : s.engineSound) : s.takeFrame.engineSound := by
  obtain ⟨fits, waits⟩ := s.engineSound_iff.1 h
  exact (State.engineSound_iff _).2 ⟨State.engineFits_takeFrame fits, State.waitsForGrid_takeFrame waits⟩

/-- After the publish of what may publish no frame waits on a free grid (R78). -/
theorem State.engineSound_publishWaiting {s : State} (h : s.engineFits) : s.publishWaiting.engineSound := by
  refine (State.engineSound_iff _).2 ?_
  by_cases hw : s.engine.state = .publishWait ∧ s.gridFree = true
  · obtain ⟨waits, free⟩ := hw
    obtain ⟨engine, -⟩ := id h
    have found : ∃ i, s.frameIn .solving = some i := by
      by_contra none
      have idle := engine.2 (State.frame_ne_of_frameIn (Option.eq_none_iff_forall_ne_some.2 fun i hi => none ⟨i, hi⟩))
      rw [idle] at waits
      cases waits
    obtain ⟨i, hi⟩ := found
    simp only [State.publishWaiting, waits, free, hi, and_self, if_true]
    split
    · exact ⟨State.engineFits_takeFrame (State.engineFits_discardFrame h hi), State.waitsForGrid_takeFrame nofun⟩
    · exact ⟨State.engineFits_takeFrame (State.engineFits_publishFrame h hi), State.waitsForGrid_takeFrame nofun⟩
  · rw [State.publishWaiting, if_neg hw]
    exact ⟨h, fun waits => by simpa [waits] using hw⟩

theorem State.engineSound_congr {s u : State} (h : s.engineSound) (lock : u.grid.lock = s.grid.lock)
    (hold : u.grid.hold = s.grid.hold) (frame0 : u.frame0 = s.frame0) (frame1 : u.frame1 = s.frame1)
    (engine : u.engine = s.engine) : u.engineSound := by
  unfold State.engineSound State.anyFrame State.gridFree
  rw [lock, hold, frame0, frame1, engine]
  exact h

theorem State.engineSound_unlock {s : State} (h : s.engineSound) : s.unlock.engineSound :=
  State.engineSound_publishWaiting (s := { s with grid := { s.grid with lock := none } }) (s.engineSound_iff.1 h).1

theorem State.engineSound_releasePanel {s : State} (h : s.engineFits) (waits : s.grid.hold = false → s.waitsForGrid) :
    s.releasePanel.engineSound := by
  unfold State.releasePanel
  split
  · exact State.engineSound_publishWaiting (s := { s with grid := { s.grid with hold := false } }) h
  · exact s.engineSound_iff.2 ⟨h, waits (by simpa using ‹¬s.grid.hold = true›)⟩

theorem State.engineSound_raise {s : State} (r : Report) (h : s.engineSound) : (s.raise r).engineSound :=
  State.engineSound_congr h (by simp) (by simp) (by simp) (by simp) (by simp)

theorem State.engineSound_endComputing {s : State} (h : s.engineSound) : s.endComputing.engineSound := by
  obtain ⟨fits, -⟩ := s.engineSound_iff.1 h
  obtain e | ⟨i, computing, hi, ⟨-, e⟩ | ⟨-, e⟩⟩ := s.endComputing_cases <;> rw [e]
  · exact h
  · exact (State.engineSound_iff _).2
      ⟨State.engineFits_takeFrame (State.engineFits_discardFrame fits hi), State.waitsForGrid_takeFrame nofun⟩
  · obtain ⟨engine, rest⟩ := fits
    refine State.engineSound_publishWaiting ⟨⟨nofun, fun none => ?_⟩, rest⟩
    exact absurd ((engine.2 none).symm.trans computing) nofun

theorem State.engineSound_endJob {s : State} (a : Active) (o : JobOutcome) (g : Nat) (h : s.engineSound) :
    (s.endJob a o g).engineSound :=
  State.endJob_keeps a o g h (fun _ hx => State.engineSound_unlock hx) (fun _ hx => hx) (fun _ _ _ hx => hx)
    (fun _ _ _ hx => State.engineSound_raise _ hx) (fun _ hx => hx) (fun _ _ _ hx => hx) (fun _ hx => hx)

/-- SCAN's judgement of a key slot is the table's and the Condition Queue's alone. -/
theorem State.judgeKey_eq (s : State) (slot : Nat) (blocks : List (List Byte)) : s.judgeKey slot blocks =
    { s with keys := (s.judgeKey slot blocks).keys, conds := (s.judgeKey slot blocks).conds } := by
  unfold State.judgeKey
  dsimp only
  split
  · rfl
  split
  · rfl
  split
  · rw [State.damageKey, State.raise_eq]; rfl
  · split
    · rw [State.damageKey, State.raise_eq]; rfl
    · rfl

theorem State.engineSound_runs {s u : State} (h : s.Runs u) (hs : s.engineSound) : u.engineSound := by
  induction h with
  | done => exact hs
  | ends o g _ _ _ ih => exact ih (State.engineSound_endJob _ o g hs)
  | raises r _ ih => exact ih (State.engineSound_raise r hs)
  | judgesKey slot blocks _ ih => exact ih (by rw [State.judgeKey_eq]; exact hs)
  | goesOn _ _ _ ih | appends _ _ _ _ ih | tallies _ _ ih | fills _ _ ih | scrubs _ _ _ _ ih | regions _ _ _ ih
  | flash _ _ ih => exact ih hs

theorem State.engineSound_begun {s : State} {j : Job} {d : JobData} (h : s.engineSound) : (s.begun j d).engineSound := by
  obtain ⟨fits, -⟩ := s.engineSound_iff.1 h
  unfold State.begun
  split
  · exact (State.engineSound_iff _).2 ⟨fits, fun _ => rfl⟩
  · exact h

/-! ## The records -/

theorem Frame.resetSession_solving (f : Frame) : f.resetSession.state = .solving ↔ f.state = .solving := by
  unfold Frame.resetSession
  split <;> simp_all [Frame.empty]

theorem Frame.resetSession_state (f : Frame) : f.resetSession.state = .free ∨ f.resetSession.state = f.state := by
  unfold Frame.resetSession
  split <;> simp_all [Frame.empty]

theorem Frame.resetSession_discard (f : Frame) (h : f.discard = true → f.state = .solving) :
    f.resetSession.discard = true → f.resetSession.state = .solving := by
  unfold Frame.resetSession
  split <;> simp_all [Frame.empty]

/-- Buffers emptied of frames that are not solved leave the engine with its own. -/
theorem State.engineFits_emptied {s u : State} (h : s.engineFits) (engine : u.engine.state = s.engine.state)
    (solving : ∀ i, (u.frame i).state = .solving ↔ (s.frame i).state = .solving)
    (state : ∀ i, (u.frame i).state = .free ∨ (u.frame i).state = (s.frame i).state)
    (discard : ∀ i, (u.frame i).discard = true → (u.frame i).state = .solving) : u.engineFits := by
  obtain ⟨idle, apart, -⟩ := h
  refine ⟨?_, fun i busy => ?_, discard⟩
  · rw [engine, idle]
    exact forall_congr' fun i => not_congr (solving i).symm
  · have here := (state i).resolve_left busy
    obtain free | same := state (!i)
    · rw [free]
      exact fun e => busy e.symm
    · rw [same, here]
      exact apart i (here ▸ busy)

theorem State.waitsForGrid_setFrame {s : State} (i : Bool) (f : Frame) (h : s.waitsForGrid) : (s.setFrame i f).waitsForGrid := by
  cases i <;> exact h

/-- Only a SOLVING frame has the discard mark. -/
theorem State.kept_of_filling {s : State} {i : Bool} (h : s.engineFits) (filling : (s.frame i).state = .filling) :
    (s.frame i).discard = false := by
  obtain ⟨-, -, disc⟩ := h
  rw [Bool.eq_false_iff]
  intro e
  exact absurd ((disc i e).symm.trans filling) nofun

/-- The engine takes a QUEUED frame, never the FILLING one. -/
theorem State.takeFrame_filling {s : State} {i : Bool} (filling : (s.frame i).state = .filling) :
    s.takeFrame.frame i = s.frame i := by
  obtain ⟨j, -, hj, e⟩ | ⟨e, -⟩ := s.takeFrame_cases <;> rw [e]
  · have other : i = !j := Bool.eq_not_of_ne fun e => by
      rw [e, State.frameIn_some hj] at filling
      cases filling
    subst other
    exact s.setFrame_other j _

/-- Once the engine has taken what it may, no frame beside a FILLING one is QUEUED. -/
theorem State.takeFrame_not_queued {s : State} {i : Bool} (h : s.engineFits) (filling : (s.frame i).state = .filling) :
    (s.takeFrame.frame (!i)).state ≠ .queued := by
  obtain ⟨idle, apart, -⟩ := h
  obtain ⟨j, -, hj, e⟩ | ⟨e, none⟩ := s.takeFrame_cases <;> rw [e]
  · have other : j = !i := Bool.eq_not_of_ne fun e => by
      have queued := State.frameIn_some hj
      rw [e, filling] at queued
      cases queued
    subst other
    have taken : (State.setFrame s (!i) { s.frame (!i) with state := .solving }).frame (!i) =
        { s.frame (!i) with state := .solving } := s.setFrame_frame (!i) _
    exact fun queued => absurd ((congrArg Frame.state taken).symm.trans queued) nofun
  · by_cases he : s.engine.state = .idle
    · exact State.frame_ne_of_frameIn (none he) (!i)
    · intro queued
      refine he (idle.2 fun j => ?_)
      by_cases e : j = i
      · rw [e, filling]; nofun
      · rw [Bool.eq_not_of_ne e, queued]; nofun

theorem State.engineSound_popHistory {s : State} (h : s.engineSound) : s.popHistory.engineSound := by
  unfold State.popHistory
  split <;> exact h

theorem State.engineSound_judged {s u : State} {r : Result} (h : s.Judged u r) (hs : s.engineSound) : u.engineSound := by
  obtain ⟨fits, waits⟩ := s.engineSound_iff.1 hs
  have ⟨idle, apart, disc⟩ := fits
  cases h with
  | reset =>
    have cleared : State.engineFits { s with
        frame0 := s.frame0.resetSession, frame1 := s.frame1.resetSession, history := s.history.clear
        staging := s.staging.resetSession, watches := List.replicate 4 Watch.off
        counters := List.replicate 10 CounterSet.zero } :=
      State.engineFits_emptied fits rfl
        (Bool.forall_bool.2 ⟨s.frame0.resetSession_solving, s.frame1.resetSession_solving⟩)
        (Bool.forall_bool.2 ⟨s.frame0.resetSession_state, s.frame1.resetSession_state⟩)
        (Bool.forall_bool.2 ⟨s.frame0.resetSession_discard (disc false), s.frame1.resetSession_discard (disc true)⟩)
    unfold judgeResetSession
    obtain e | ⟨i, -, hi, -, e⟩ := State.discardWaiting_cases _ <;> rw [e]
    · exact (State.engineSound_iff _).2 ⟨cleared, waits⟩
    · exact (State.engineSound_iff _).2 ⟨State.engineFits_discardFrame cleared hi, nofun⟩
  | plane p x => cases p <;> exact hs
  | @frameOpen i f free none filling kept _ _ =>
    have was := State.frameIn_some free
    simp only [State.anyFrame, Bool.or_eq_false_iff, decide_eq_false_iff_not] at none
    refine (State.engineSound_iff _).2 ⟨State.engineFits_refilled fits (by rw [was]; nofun) (by rw [filling]; nofun)
      (fun _ => ?_) kept, State.waitsForGrid_setFrame i f waits⟩
    rw [filling]
    cases i
    · exact none.2
    · exact none.1
  | @zones i slots _ _ filling _ =>
    have was := State.frameIn_some filling
    exact (State.engineSound_iff _).2 ⟨State.engineFits_refilled fits (by rw [was]; nofun)
      (show (s.frame i).state ≠ .solving by rw [was]; nofun) (apart i) (State.kept_of_filling fits was),
      State.waitsForGrid_setFrame i _ waits⟩
  | @frameClose i n filling =>
    have was := State.frameIn_some filling
    have same := State.takeFrame_filling was
    refine (State.engineSound_iff _).2 ⟨State.engineFits_refilled (State.engineFits_takeFrame fits)
      (by rw [same, was]; nofun) nofun (fun _ => State.takeFrame_not_queued fits was) (State.kept_of_filling fits was),
      State.waitsForGrid_setFrame i _ (State.waitsForGrid_takeFrame waits)⟩
  | @frameAbandon i filling =>
    have was := State.frameIn_some filling
    exact (State.engineSound_iff _).2 ⟨State.engineFits_refilled fits (by rw [was]; nofun) nofun (fun no => absurd rfl no) rfl,
      State.waitsForGrid_setFrame i _ waits⟩
  | rollback => exact State.engineSound_popHistory hs
  | _ => exact hs

/-! ## Every operation -/

theorem State.engineSound_reset : State.reset.engineSound := by
  refine ⟨⟨fun _ => rfl, fun _ => rfl⟩, ?_, ?_, ?_, nofun, nofun, nofun⟩ <;> exact nofun

theorem State.engineSound_powerOn {s : State} (i : PowerOnInput) : (s.powerOn i).engineSound := by
  have congr : ∀ {x u : State}, x.engineSound ∧ x.engine.state = .idle → u.frame0 = x.frame0 → u.frame1 = x.frame1 →
      u.engine = x.engine → u.engineSound ∧ u.engine.state = .idle := by
    rintro x u ⟨h, idle⟩ f0 f1 e
    have idle' : u.engine.state = .idle := e ▸ idle
    refine ⟨?_, idle'⟩
    unfold State.engineSound State.anyFrame
    rw [f0, f1, e]
    obtain ⟨a, b, c, d, p, q, -⟩ := h
    exact ⟨a, b, c, d, p, q, fun waits => absurd (idle.symm.trans waits) nofun⟩
  refine State.powerOn_keeps (L := fun x => x.engineSound ∧ x.engine.state = .idle) ⟨State.engineSound_reset, rfl⟩
    (fun _ _ _ _ => ⟨State.engineSound_reset, rfl⟩) (fun x hx => ?_) (fun x r hx => ?_) (fun x l m hx => ?_)
    (fun x k b hx => ?_) (fun x l m hx => ?_) (fun _ _ hx => hx) (fun _ hx => hx.1) (fun x hx => ?_)
  · exact congr hx (State.raise_frame0 _ _) (State.raise_frame1 _ _) (State.raise_engine _ _)
  · exact congr hx (State.raise_frame0 _ _) (State.raise_frame1 _ _) (State.raise_engine _ _)
  · unfold State.loadGrid
    split
    · rw [State.resume_eq]; exact congr hx rfl rfl rfl
    · exact hx
  · rw [State.loadKey_eq]; exact hx
  · rw [State.loadRegion_eq]; exact hx
  · exact State.startDue_keeps (P := State.engineSound) (fun _ _ _ _ _ _ _ hs => State.engineSound_begun hs)
      (fun _ _ run hs => State.engineSound_runs run hs) hx.1

theorem Frame.laneReset_state (f : Frame) : f.laneReset.state = .free ∨ f.laneReset.state = f.state := by
  unfold Frame.laneReset
  split
  · exact .inl rfl
  · exact .inr rfl

theorem Frame.laneReset_solving (f : Frame) : f.laneReset.state = .solving ↔ f.state = .solving := by
  unfold Frame.laneReset
  split
  · rename_i filling
    rw [filling]
    exact ⟨nofun, nofun⟩
  · rfl

theorem Frame.laneReset_discard (f : Frame) (h : f.discard = true → f.state = .solving) :
    f.laneReset.discard = true → f.laneReset.state = .solving := by
  unfold Frame.laneReset
  split
  · exact nofun
  · exact h

theorem State.engineSound_laneReset {s : State} (taken : Bool) (h : s.engineSound) : (s.laneReset taken).engineSound := by
  have dropped : (s.dropTxn taken).engineSound :=
    State.dropTxn_keeps taken (fun t _ _ hx => by rw [State.flashTakes_eq]; exact hx)
      (fun _ _ hx => by rw [State.forgetProfile_eq]; exact hx) h
  obtain ⟨fits, waits⟩ := (State.engineSound_iff _).1 dropped
  obtain ⟨-, -, disc⟩ := id fits
  exact State.engineSound_releasePanel
    (State.engineFits_emptied fits rfl
      (Bool.forall_bool.2 ⟨Frame.laneReset_solving _, Frame.laneReset_solving _⟩)
      (Bool.forall_bool.2 ⟨Frame.laneReset_state _, Frame.laneReset_state _⟩)
      (Bool.forall_bool.2 ⟨Frame.laneReset_discard _ (disc false), Frame.laneReset_discard _ (disc true)⟩)) (fun _ => waits)

/-- Every part keeps the engine and its frame. -/
theorem State.engineSound_parts : Parts (fun _ => True) State.engineSound where
  powerOn i _ _ := State.engineSound_powerOn i
  powerLoss _ _ _ := State.engineSound_reset
  laneReset taken _ _ h := State.engineSound_laneReset taken h
  resetLine _ h := h
  pfwLine _ h := h
  flashTimer h := h
  tick h := h
  lapsed _ _ h := h
  parks _ _ h := h
  raise r h := State.engineSound_raise r h
  withdraw h := h
  select {s} c a _ _ h := by
    obtain ⟨t, -, ⟨-, e⟩ | ⟨-, _, _, e⟩⟩ := s.select_cases c a <;> rw [e] <;> exact h
  passes {s u} hp h := by
    obtain rfl | ⟨_, _, _, hold, _, _, -, -, taken, rfl⟩ := hp
    · exact h
    · obtain rfl | ⟨-, rfl⟩ := taken
      · exact h
      · obtain ⟨fits, -⟩ := s.engineSound_iff.1 h
        exact (State.engineSound_iff _).2 ⟨fits, fun _ => by simp [State.gridFree]⟩
  ignored _ _ h := h
  released {s} h := by
    obtain ⟨fits, waits⟩ := s.engineSound_iff.1 h
    exact State.engineSound_releasePanel (s := { s with upstream := none }) fits (fun _ => waits)
  charge _ _ _ h := h
  watches _ h := h
  shadow _ h := h
  forget a h := by rw [State.forgetProfile_eq]; exact h
  takes t h := by rw [State.flashTakes_eq]; exact h
  draw h := h
  note _ _ h := h
  judged hj h := State.engineSound_judged hj h
  begun _ _ _ h := State.engineSound_begun h
  runs run h := State.engineSound_runs run h
  takeFrame h := State.engineSound_takeFrame h
  endComputing h := State.engineSound_endComputing h
  publishWaiting {s} h := State.engineSound_publishWaiting (s.engineSound_iff.1 h).1
  begins _ _ _ _ _ h := h

/-- Settles O11. -/
theorem stepsKeepTheEngineAndItsFrame : Obligations.StepsKeepTheEngineAndItsFrame :=
  fun _ _ hs h => State.engineSound_parts.kept.step (fun _ _ h => h) (fun _ h => h) hs h

end Sys2Proof.Machine
end

section
/-! The grid lock with its job and the panel read hold with its transaction (R45, R46): the statement O7. -/

namespace Sys2Proof.Machine

/-! ## What leaves the lock and the hold alone -/

/-- The grid lock and the panel read hold. -/
def Grid.keepers (g : Grid) : Option JobKind × Bool := (g.lock, g.hold)

theorem State.publishWaiting_keepers (s : State) : s.publishWaiting.grid.keepers = s.grid.keepers := by
  obtain e | ⟨i, -, -, -, ⟨-, e⟩ | ⟨-, e⟩⟩ := s.publishWaiting_cases <;> rw [e]
  · rw [State.takeFrame_grid, State.discardFrame_grid]
  · rw [State.takeFrame_grid]
    rfl

theorem State.endComputing_keepers (s : State) : s.endComputing.grid.keepers = s.grid.keepers := by
  obtain e | ⟨i, -, -, ⟨-, e⟩ | ⟨-, e⟩⟩ := s.endComputing_cases <;> rw [e]
  · rw [State.takeFrame_grid, State.discardFrame_grid]
  · exact State.publishWaiting_keepers _

theorem State.unlock_keepers (s : State) : s.unlock.grid.keepers = (none, s.grid.hold) := State.publishWaiting_keepers _

/-- No panel read hold outlives its release. -/
theorem State.releasePanel_keepers (s : State) : s.releasePanel.grid.keepers = (s.grid.lock, false) := by
  unfold State.releasePanel
  split
  · exact State.publishWaiting_keepers _
  · exact Prod.ext rfl (Bool.eq_false_of_not_eq_true ‹¬s.grid.hold = true›)

theorem State.Judged.keepers {s u : State} {r : Result} (h : s.Judged u r) : u.grid.keepers = s.grid.keepers := by
  cases h with
  | reset =>
    unfold judgeResetSession
    obtain e | ⟨i, -, -, -, e⟩ := State.discardWaiting_cases _ <;> rw [e]
    rw [State.discardFrame_grid]
  | plane p x => cases p <;> rfl
  | frameOpen | zones | frameAbandon => rw [State.setFrame_grid]
  | frameClose => rw [State.setFrame_grid, State.takeFrame_grid]
  | rollback => unfold State.popHistory; split <;> rfl
  | _ => rfl

theorem State.Judged.active {s u : State} {r : Result} (h : s.Judged u r) : u.seq.active = s.seq.active := by
  cases h with
  | reset =>
    unfold judgeResetSession
    obtain e | ⟨i, -, -, -, e⟩ := State.discardWaiting_cases _ <;> rw [e]
    rw [State.discardFrame_seq]
  | frameOpen | zones | frameAbandon => rw [State.setFrame_seq]
  | frameClose => rw [State.setFrame_seq, State.takeFrame_seq]
  | rollback => unfold State.popHistory; split <;> rfl
  | _ => rfl

/-! ## The invariant -/

/-- The lock a job holds (R46). -/
def JobKind.locks (k : JobKind) : Option JobKind := if k = .commitGrid ∨ k = .park then some k else none

theorem State.lockOfJob_eq (s : State) : s.lockOfJob = s.seq.active.bind (fun a => a.job.kind.locks) := by
  unfold State.lockOfJob JobKind.locks
  cases s.seq.active <;> rfl

theorem State.lockSound_congr {s u : State} (h : s.lockSound) (keepers : u.grid.keepers = s.grid.keepers)
    (active : u.seq.active = s.seq.active) (upstream : u.upstream = s.upstream) : u.lockSound := by
  obtain ⟨lock, hold⟩ := Prod.mk.inj keepers
  unfold State.lockSound State.lockOfJob State.served?
  rw [lock, hold, active, upstream]
  exact h

/-- A job ends: COMMIT_GRID and PARK release the lock, which no other job holds. -/
theorem State.lockSound_endJob {s : State} {a b : Active} (o : JobOutcome) (g : Nat) (active : s.seq.active = some a)
    (same : a.same b) (h : s.lockSound) : (s.endJob b o g).lockSound := by
  obtain ⟨lock, hold⟩ := h
  rw [State.lockOfJob_eq, active] at lock
  obtain ⟨job, -⟩ := same
  have lock' : s.grid.lock = b.job.kind.locks := by rw [job]; exact lock
  obtain ⟨none, -, -, -, up, -⟩ := s.endJob_fields b o g
  have released : (s.endJob b o g).grid.keepers = (Option.none, s.grid.hold) := by
    unfold State.endJob State.endActions
    cases hk : b.job.kind <;> rw [hk] at lock' <;> dsimp only
    case commitGrid => exact State.unlock_keepers _
    case park => split <;> exact State.unlock_keepers _
    case keyStore | keyErase =>
      split
      · exact Prod.ext lock' rfl
      · simp only [State.damageKey, State.clearStaging, State.raise_grid]
        exact Prod.ext lock' rfl
    case regionSelect | closeOut => split <;> exact Prod.ext lock' rfl
    case scan | scrub => exact Prod.ext lock' rfl
  obtain ⟨lock'', hold''⟩ := Prod.mk.inj released
  refine ⟨by rw [lock'', State.lockOfJob_eq, none]; rfl, ?_⟩
  unfold State.served?
  rw [hold'', up]
  exact hold

theorem State.lockSound_runs {s u : State} (h : s.Runs u) (hs : s.lockSound) : u.lockSound := by
  induction h with
  | done => exact hs
  | goesOn active same _ ih =>
    refine ih ⟨?_, hs.2⟩
    obtain ⟨lock, -⟩ := hs
    obtain ⟨job, -⟩ := same
    rw [State.lockOfJob_eq, active] at lock
    rw [State.lockOfJob_eq]
    show _ = JobKind.locks _
    rw [job]
    exact lock
  | ends o g active same _ ih => exact ih (State.lockSound_endJob o g active same hs)
  | raises r _ ih => exact ih (State.lockSound_congr hs (by rw [State.raise_grid]) (by rw [State.raise_seq]) (State.raise_upstream _ _))
  | judgesKey slot blocks _ ih => exact ih (by rw [State.judgeKey_eq]; exact hs)
  | appends _ _ _ _ ih | tallies _ _ ih | fills _ _ ih | scrubs _ _ _ _ ih | regions _ _ _ ih | flash _ _ ih => exact ih hs

/-- A job that starts takes the lock it holds. -/
theorem State.lockSound_begun {s : State} {j : Job} {d : JobData} (idle : s.seq.active = none) (h : s.lockSound) :
    (s.begun j d).lockSound := by
  obtain ⟨lock, hold⟩ := h
  rw [State.lockOfJob_eq, idle] at lock
  refine ⟨?_, ?_⟩
  · rw [State.lockOfJob_eq]
    unfold State.begun JobKind.locks
    split
    · rename_i locks
      exact (if_pos locks).symm
    · rename_i locks
      exact lock.trans (if_neg locks).symm
  · unfold State.begun
    split <;> exact hold

/-! ## The start-up load -/

theorem resumeFrom_keepers (r : CommitRecord) (m : Memory) (l : Layout) : (resumeFrom r m l).grid.keepers = (none, false) := by
  have panel : (resumePanel r m l).grid.keepers = (none, false) := by
    unfold resumePanel
    split
    · split
      · rename_i x hx
        unfold readPanel at hx
        dsimp only at hx
        split at hx
        · cases hx; rfl
        · cases hx
      · rfl
    · rfl
  unfold resumeFrom
  split
  · split
    · rename_i x hx
      unfold readPark at hx
      split at hx
      · split at hx
        · cases hx; rfl
        · cases hx
      · cases hx
    · exact panel
  · exact panel

/-- What the load keeps: no job, no lock and no hold. -/
def State.unheld (s : State) : Prop := s.seq.active = none ∧ s.grid.keepers = (none, false)

theorem State.lockSound_of_unheld {s : State} (h : s.unheld) : s.lockSound := by
  obtain ⟨idle, keepers⟩ := h
  obtain ⟨lock, hold⟩ := Prod.mk.inj keepers
  exact ⟨by rw [lock, State.lockOfJob_eq, idle]; rfl, fun held => absurd (hold.symm.trans held) nofun⟩

theorem State.lockSound_powerOn {s : State} (i : PowerOnInput) : (s.powerOn i).lockSound := by
  refine State.powerOn_keeps (L := State.unheld) ⟨rfl, rfl⟩ (fun _ _ _ _ => ⟨rfl, rfl⟩) (fun x hx => ?_) (fun x r hx => ?_)
    (fun x l m hx => ?_) (fun x k b hx => ?_) (fun x l m hx => ?_) (fun _ _ hx => hx) (fun _ => State.lockSound_of_unheld)
    (fun x hx => ?_)
  · unfold State.unheld State.pfwRise
    rw [State.raise_seq, State.raise_grid]
    exact hx
  · unfold State.unheld
    rw [State.raise_seq, State.raise_grid]
    exact hx
  · unfold State.loadGrid State.resume
    split
    · split
      · exact hx
      · dsimp only
        rw [State.raiseAll_eq]
        exact ⟨hx.1, resumeFrom_keepers _ m l⟩
    · exact hx
  · rw [State.loadKey_eq]; exact hx
  · rw [State.loadRegion_eq]; exact hx
  · exact State.startDue_keeps (P := State.lockSound) (fun _ _ _ _ idle _ _ hs => State.lockSound_begun idle hs)
      (fun _ _ run hs => State.lockSound_runs run hs) (State.lockSound_of_unheld hx)

theorem State.lockOfJob_cutRead (s : State) : s.cutRead.lockOfJob = s.lockOfJob := by
  rw [State.lockOfJob_eq, State.lockOfJob_eq]
  unfold State.cutRead
  cases s.seq.active with
  | none => rfl
  | some a => exact congrArg (fun j => JobKind.locks (Job.kind j)) a.cut_keeps.1

/-- Once the panel read hold is released there is no more to it. -/
theorem State.lockSound_released {s : State} (h : s.grid.lock = s.lockOfJob) : s.releasePanel.lockSound := by
  obtain ⟨lock, hold⟩ := Prod.mk.inj s.releasePanel_keepers
  refine ⟨?_, fun held => absurd (hold.symm.trans held) nofun⟩
  rw [lock, h, State.lockOfJob_eq, State.lockOfJob_eq, State.releasePanel_seq]

/-- Every part keeps the lock with its job and the hold with its transaction. -/
theorem State.lockSound_parts : Parts (fun _ => True) State.lockSound where
  powerOn i _ _ := State.lockSound_powerOn i
  powerLoss _ _ _ := State.lockSound_of_unheld ⟨rfl, rfl⟩
  laneReset {s} taken _ _ h := by
    have dropped : (s.dropTxn taken).lockSound :=
      State.dropTxn_keeps taken (fun t _ _ hx => by rw [State.flashTakes_eq]; exact hx)
        (fun _ _ hx => by rw [State.forgetProfile_eq]; exact hx) h
    exact State.lockSound_released (dropped.1.trans (s.dropTxn taken).lockOfJob_cutRead.symm)
  resetLine _ h := h
  pfwLine _ h := h
  flashTimer h := h
  tick h := h
  lapsed _ _ h := h
  parks _ _ h := h
  raise r h := State.lockSound_congr h (by rw [State.raise_grid]) (by rw [State.raise_seq]) (State.raise_upstream _ r)
  withdraw h := h
  select {s} c a _ none h := by
    obtain ⟨lock, hold⟩ := h
    have free : s.grid.hold = true → False := fun held => by simpa [State.served?, none] using hold held
    obtain ⟨t, -, ⟨-, e⟩ | ⟨-, _, _, e⟩⟩ := s.select_cases c a <;> rw [e]
    · exact ⟨lock, fun held => (free held).elim⟩
    · exact ⟨lock.trans s.lockOfJob_cutRead.symm, fun held => (free held).elim⟩
  passes {s u} hp h := by
    obtain ⟨lock, hold⟩ := h
    obtain rfl | ⟨t, t', _, _, _, _, up, ⟨ign, -⟩, taken, rfl⟩ := hp
    · exact ⟨lock, hold⟩
    · refine ⟨lock, fun held => ?_⟩
      show (!t'.ignored) = true
      rw [ign]
      obtain rfl | ⟨served, -⟩ := taken
      · simpa [State.served?, up] using hold held
      · rw [served]
        rfl
  ignored {s t} up ign h := by
    obtain ⟨lock, hold⟩ := h
    refine ⟨lock, fun held => ?_⟩
    simpa [State.served?, up, ign] using hold held
  released h := State.lockSound_released h.1
  charge _ _ _ h := h
  watches _ h := h
  shadow _ h := h
  forget a h := by rw [State.forgetProfile_eq]; exact h
  takes t h := by rw [State.flashTakes_eq]; exact h
  draw h := h
  note _ _ h := h
  judged hj h := State.lockSound_congr h hj.keepers hj.active (State.outer_upstream hj.outer)
  begun idle _ _ h := State.lockSound_begun idle h
  runs run h := State.lockSound_runs run h
  takeFrame h := State.lockSound_congr h (by simp) (by simp) (by simp)
  endComputing {s} h := by
    refine State.lockSound_congr h (State.endComputing_keepers _) ?_ (State.outer_upstream (State.outer_endComputing _))
    obtain e | ⟨i, -, -, ⟨-, e⟩ | ⟨-, e⟩⟩ := s.endComputing_cases <;> rw [e] <;> simp
  publishWaiting h := State.lockSound_congr h (State.publishWaiting_keepers _) (by simp) (by simp)
  begins {s a} p f _ active _ h := by
    obtain ⟨lock, hold⟩ := h
    refine ⟨lock.trans ?_, hold⟩
    rw [State.lockOfJob_eq, State.lockOfJob_eq, active, State.withRecord_eq]
    rfl

/-- Settles O7. -/
theorem stepsKeepTheLockAndTheHold : Obligations.StepsKeepTheLockAndTheHold :=
  fun _ _ hs h => State.lockSound_parts.kept.step (fun _ _ h => h) (fun _ h => h) hs h

end Sys2Proof.Machine
end

section
/-! The law of key classes, with the key jobs that keep it (R154, R161 to R165): the statement O13. -/

namespace Sys2Proof.Machine

/-! ## Entries -/

theorem State.keyEntry_setKey_same {s : State} {slot : Nat} (e : KeyEntry) (h : slot < s.keys.length) :
    (s.setKey slot e).keyEntry slot = e := by
  simp [State.keyEntry, State.setKey, h]

theorem State.keyEntry_setKey_other {s : State} {slot i : Nat} (e : KeyEntry) (h : i ≠ slot) :
    (s.setKey slot e).keyEntry i = s.keyEntry i := by
  simp [State.keyEntry, State.setKey, List.getElem?_set_ne h.symm]

/-- A slot that is PENDING is one of the table's. -/
theorem State.pending_inside {s : State} {slot : Nat} (h : (s.keyEntry slot).state = .pending) : slot < s.keys.length := by
  by_contra outside
  rw [State.keyEntry, List.getD_eq_default _ _ (not_lt.1 outside)] at h
  cases h

theorem KeyEntry.holds_iff (e : KeyEntry) (c : Nat) :
    e.holds c = true ↔ (e.state = .present ∨ e.state = .pending) ∧ e.cls = c := by
  simp [KeyEntry.holds]

/-- A class that is not taken is held by no other slot. -/
theorem State.classTaken_eq_false {s : State} {slot cls : Nat} (h : s.classTaken slot cls = false) {j : Nat}
    (inside : j < s.keys.length) (other : j ≠ slot) : (s.keyEntry j).holds cls = false := by
  simp only [State.classTaken, List.any_eq_false, Bool.and_eq_true, decide_eq_true_eq, not_and] at h
  have mem : (s.keys[j], j) ∈ s.keys.zipIdx := by
    rw [List.mem_zipIdx_iff_getElem?]
    exact List.getElem?_eq_getElem inside
  rw [State.keyEntry, List.getD_eq_getElem _ _ inside]
  exact Bool.eq_false_of_not_eq_true (h _ mem other)

/-- What a new entry of a slot must not do: hold a class that another slot holds (R154). -/
def State.admits (s : State) (slot : Nat) (e : KeyEntry) : Prop :=
  ∀ c, 1 ≤ c → e.holds c = true → ∀ j, j < 16 → j ≠ slot → (s.keyEntry j).holds c = false

theorem State.keyLaw_setKey {s : State} {slot : Nat} {e : KeyEntry} (len : s.keys.length = 16) (law : s.keyLaw)
    (admitted : s.admits slot e) : (s.setKey slot e).keyLaw := by
  intro i j c hi hj ne pos held
  by_cases his : i = slot
  · subst his
    rw [State.keyEntry_setKey_same e (len.symm ▸ hi)] at held
    rw [State.keyEntry_setKey_other e ne.symm]
    exact admitted c pos held j hj ne.symm
  · rw [State.keyEntry_setKey_other e his] at held
    by_cases hjs : j = slot
    · subst hjs
      rw [State.keyEntry_setKey_same e (len.symm ▸ hj)]
      rw [Bool.eq_false_iff]
      intro he
      exact absurd held (Bool.eq_false_iff.1 (admitted c pos he i hi ne))
    · rw [State.keyEntry_setKey_other e hjs]
      exact law i j c hi hj ne pos held

/-- An entry that holds no class is always admitted. -/
theorem State.admits_of_unheld (s : State) (slot : Nat) {e : KeyEntry} (h : e.state ≠ .present ∧ e.state ≠ .pending) :
    s.admits slot e := by
  intro c _ held
  obtain ⟨state, -⟩ := (e.holds_iff c).1 held
  exact absurd state (not_or.2 h)

/-- An entry with the class its slot holds already is admitted. -/
theorem State.admits_of_cls {s : State} {slot : Nat} {e : KeyEntry} (law : s.keyLaw) (inside : slot < 16)
    (pending : (s.keyEntry slot).state = .pending) (same : e.cls = (s.keyEntry slot).cls) : s.admits slot e := by
  intro c pos held j hj ne
  obtain ⟨-, cls⟩ := (e.holds_iff c).1 held
  exact law slot j c inside hj ne.symm pos (((s.keyEntry slot).holds_iff c).2 ⟨.inr pending, same.symm.trans cls⟩)

/-- An entry with a class that is not taken is admitted (R161). -/
theorem State.admits_of_untaken {s : State} {slot : Nat} {e : KeyEntry} (len : s.keys.length = 16)
    (h : s.classTaken slot e.cls = false) : s.admits slot e := by
  intro c _ held j hj ne
  obtain ⟨-, rfl⟩ := (e.holds_iff c).1 held
  exact State.classTaken_eq_false h (len.symm ▸ hj) ne

/-! ## The key jobs -/

/-- A job is a key job. -/
def Job.isKey (j : Job) : Bool := decide (j.kind = .keyStore) || decide (j.kind = .keyErase)

/-- The job in progress with the key it has built. -/
def State.keyInProgress (s : State) : Option (Job × Option (KeyEntry × List Byte)) :=
  s.seq.active.map (fun a => (a.job, a.data.key))

theorem State.keyJobs_eq (s : State) :
    s.keyJobs = ((s.keyInProgress.map Prod.fst).toList ++ s.seq.waiting).filter Job.isKey := by
  unfold State.keyJobs State.keyInProgress
  cases s.seq.active <;> rfl

theorem State.builtSound_iff (s : State) :
    s.builtSound ↔ ∀ j k, s.keyInProgress = some (j, k) → j.kind = .keyStore →
      ∃ e bytes, k = some (e, bytes) ∧ e.cls = (s.keyEntry j.slot).cls := by
  unfold State.builtSound State.keyInProgress
  constructor
  · intro h j k hjk store
    obtain ⟨a, ha, e⟩ := Option.map_eq_some_iff.1 hjk
    obtain ⟨rfl, rfl⟩ := Prod.mk.inj e
    exact h a ha store
  · intro h a ha store
    exact h a.job a.data.key (by rw [ha]; rfl) store

theorem State.keysSound_congr {s u : State} (h : s.keysSound) (keys : u.keys = s.keys) (staging : u.staging = s.staging)
    (active : u.keyInProgress = s.keyInProgress) (jobs : u.seq.waiting.filter Job.isKey = s.seq.waiting.filter Job.isKey) :
    u.keysSound := by
  unfold State.keysSound State.keyLaw State.keyJobSound State.keyEntry at *
  rw [State.keyJobs_eq, State.builtSound_iff, List.filter_append] at *
  unfold State.keyEntry at *
  rw [keys, staging, active, jobs]
  exact h

/-- A key slot that no job is PENDING for gets another entry. -/
theorem State.keysSound_setKey {s : State} {slot : Nat} {e : KeyEntry} (h : s.keysSound)
    (free : (s.keyEntry slot).state ≠ .pending) (admitted : s.admits slot e) : (s.setKey slot e).keysSound := by
  obtain ⟨len, law, slotIn, jobs, apart, built⟩ := h
  have elsewhere : ∀ j ∈ s.keyJobs, j.slot ≠ slot := fun j hj e => free (e ▸ (jobs j hj).1)
  refine ⟨(List.length_set ..).trans len, State.keyLaw_setKey len law admitted, slotIn, fun j hj => ?_, apart,
    fun a ha store => ?_⟩
  · unfold State.keyJobSound
    rw [State.keyEntry_setKey_other e (elsewhere j hj)]
    exact jobs j hj
  · have mem : a.job ∈ s.keyJobs := by
      have ha' : s.seq.active = some a := ha
      simp [State.keyJobs, ha', store]
    rw [State.keyEntry_setKey_other e (elsewhere _ mem)]
    exact built a ha store

theorem State.keysSound_raise {s : State} (r : Report) (h : s.keysSound) : (s.raise r).keysSound :=
  State.keysSound_congr h (by simp) (by simp) (by simp [State.keyInProgress]) (by simp)

theorem State.keysSound_damageKey {s : State} {slot : Nat} (e : KeyEntry) (h : s.keysSound)
    (free : (s.keyEntry slot).state ≠ .pending) : (s.damageKey slot e).keysSound :=
  State.keysSound_raise _ (State.keysSound_setKey h free (s.admits_of_unheld slot ⟨nofun, nofun⟩))

theorem State.keysSound_judgeKey {s : State} (slot : Nat) (blocks : List (List Byte)) (h : s.keysSound) :
    (s.judgeKey slot blocks).keysSound := by
  unfold State.judgeKey
  dsimp only
  split
  · exact h
  rename_i free
  split
  · exact State.keysSound_setKey h free (s.admits_of_unheld slot ⟨nofun, nofun⟩)
  split
  · exact State.keysSound_damageKey _ h free
  · split
    · exact State.keysSound_damageKey _ h free
    · exact State.keysSound_setKey h free (State.admits_of_untaken h.1 (Bool.eq_false_of_not_eq_true ‹_›))

/-! ## A key job ends -/

/-- The key job in progress is over: its slot gets an entry the law admits, and no other job is PENDING there. -/
theorem State.keysSound_over {s u : State} {a : Active} {e : KeyEntry} (h : s.keysSound) (active : s.seq.active = some a)
    (key : a.job.isKey = true) (admitted : s.admits a.job.slot e) (keys : u.keys = (s.setKey a.job.slot e).keys)
    (idle : u.seq.active = none) (waiting : u.seq.waiting = s.seq.waiting)
    (staging : u.staging = s.staging ∨ a.job.kind = .keyStore ∧ u.staging.slot < 16) : u.keysSound := by
  obtain ⟨len, law, slotIn, jobs, apart, -⟩ := h
  have list : s.keyJobs = a.job :: u.keyJobs := by
    simp only [State.keyJobs_eq, State.keyInProgress, active, idle, waiting, Option.map_some, Option.map_none,
      Option.toList_some, Option.toList_none, List.nil_append, List.singleton_append, List.filter_cons, key, if_true]
  rw [list] at jobs apart
  obtain ⟨here, others⟩ := List.forall_mem_cons.1 jobs
  obtain ⟨elsewhere, apart'⟩ := List.pairwise_cons.1 apart
  have entry : ∀ i, u.keyEntry i = (s.setKey a.job.slot e).keyEntry i := fun i => by
    unfold State.keyEntry
    rw [keys]
  have law' : u.keyLaw := by
    have := State.keyLaw_setKey len law admitted
    unfold State.keyLaw at *
    simpa only [entry] using this
  refine ⟨by rw [keys]; exact (List.length_set ..).trans len, law', ?_, fun j hj => ?_, apart', fun b hb => ?_⟩
  · obtain e | ⟨-, inside⟩ := staging
    · rw [e]
      exact slotIn
    · exact inside
  · obtain ⟨pending, erasing, store⟩ := others j hj
    unfold State.keyJobSound
    rw [entry, State.keyEntry_setKey_other e (elsewhere j hj).symm]
    refine ⟨pending, erasing, fun isStore => ?_⟩
    obtain ⟨held, slot, cls⟩ := store isStore
    obtain e | ⟨aStore, -⟩ := staging
    · rw [e]
      exact ⟨held, slot, cls⟩
    · obtain ⟨-, slot', -⟩ := here.2.2 aStore
      exact absurd (slot'.symm.trans slot) (elsewhere j hj)
  · rw [idle] at hb
    cases hb

/-- A job that is no key job is over. -/
theorem State.keysSound_otherOver {s u : State} {a : Active} (h : s.keysSound) (active : s.seq.active = some a)
    (other : a.job.isKey = false) (keys : u.keys = s.keys) (idle : u.seq.active = none)
    (waiting : u.seq.waiting = s.seq.waiting) (staging : u.staging = s.staging) : u.keysSound := by
  have ended : State.keysSound { s with seq := { s.seq with active := none } } := by
    obtain ⟨len, law, slotIn, jobs, apart, -⟩ := h
    have list : s.keyJobs = State.keyJobs { s with seq := { s.seq with active := none } } := by
      simp only [State.keyJobs_eq, State.keyInProgress, active, Option.map_some, Option.map_none, Option.toList_some,
        Option.toList_none, List.nil_append, List.singleton_append, List.filter_cons, other, if_false, Bool.false_eq_true]
    rw [list] at jobs apart
    exact ⟨len, law, slotIn, jobs, apart, fun _ ha => nomatch ha⟩
  exact State.keysSound_congr ended keys staging (by rw [State.keyInProgress, idle]; rfl) (by rw [waiting])

/-- What a job's end makes of the key table and the staging buffer. -/
theorem State.endJob_keys (s : State) (a : Active) (o : JobOutcome) (g : Nat) :
    (a.job.isKey = false → (s.endJob a o g).keys = s.keys ∧ (s.endJob a o g).staging = s.staging) ∧
    (a.job.kind = .keyErase → (s.endJob a o g).staging = s.staging ∧
      ∃ e : KeyEntry, (e.state ≠ .present ∧ e.state ≠ .pending) ∧ (s.endJob a o g).keys = (s.setKey a.job.slot e).keys) ∧
    (a.job.kind = .keyStore → (s.endJob a o g).staging = Staging.idle ∧
      ∃ e : KeyEntry, ((e.state ≠ .present ∧ e.state ≠ .pending) ∨ e = (a.data.key.map Prod.fst).getD KeyEntry.empty) ∧
        (s.endJob a o g).keys = (s.setKey a.job.slot e).keys) := by
  unfold State.endJob State.endActions Job.isKey
  cases hk : a.job.kind <;> simp only [reduceCtorEq, decide_true, decide_false, Bool.or_true, Bool.or_false,
    false_imp_iff, true_imp_iff, and_true, true_and, Bool.true_eq_false]
  case keyStore =>
    split
    · exact ⟨rfl, _, .inr rfl, rfl⟩
    · exact ⟨rfl, { KeyEntry.empty with state := .damaged }, .inl ⟨nofun, nofun⟩, by
        simp [State.clearStaging, State.damageKey, State.setKey]⟩
  case keyErase =>
    split
    · exact ⟨rfl, KeyEntry.empty, ⟨nofun, nofun⟩, rfl⟩
    · exact ⟨by simp [State.damageKey], { KeyEntry.empty with state := .damaged }, ⟨nofun, nofun⟩, by
        simp [State.damageKey, State.setKey]⟩
  case commitGrid => simp
  case park | regionSelect | closeOut => split <;> simp

theorem State.keysSound_endJob {s : State} {a b : Active} (o : JobOutcome) (g : Nat) (active : s.seq.active = some a)
    (same : a.same b) (h : s.keysSound) : (s.endJob b o g).keysSound := by
  obtain ⟨idle, waiting, -⟩ := s.endJob_fields b o g
  obtain ⟨other, erase, store⟩ := s.endJob_keys b o g
  obtain ⟨job, -, built, -⟩ := same
  rw [job] at other erase store
  have ⟨len, law, slotIn, jobs, apart, builtSound⟩ := h
  have here : a.job.isKey = true → s.keyJobSound a.job := fun key => jobs _ (by
    simp [State.keyJobs_eq, State.keyInProgress, active, key])
  cases hk : a.job.kind with
  | keyStore =>
    have key : a.job.isKey = true := by simp [Job.isKey, hk]
    obtain ⟨freed, e, he, keys⟩ := store hk
    refine State.keysSound_over h active key ?_ keys idle waiting (.inr ⟨hk, by rw [freed]; decide⟩)
    obtain unheld | rfl := he
    · exact s.admits_of_unheld _ unheld
    · obtain ⟨e, bytes, hkey, cls⟩ := builtSound a active hk
      refine State.admits_of_cls law (len ▸ State.pending_inside (here key).1) (here key).1 ?_
      rw [built, hkey]
      exact cls
  | keyErase =>
    have key : a.job.isKey = true := by simp [Job.isKey, hk]
    obtain ⟨staging, e, unheld, keys⟩ := erase hk
    exact State.keysSound_over h active key (s.admits_of_unheld _ unheld) keys idle waiting (.inl staging)
  | _ =>
    have key : a.job.isKey = false := by simp [Job.isKey, hk]
    obtain ⟨keys, staging⟩ := other key
    exact State.keysSound_otherOver h active key keys idle waiting staging

/-! ## Jobs queued and started -/

theorem State.keysSound_queueOther {s : State} {j : Job} (other : j.isKey = false) (h : s.keysSound) :
    (s.queueJob j).keysSound :=
  State.keysSound_congr h rfl rfl rfl (by simp [List.filter_append, other])

theorem State.keysSound_runs {s u : State} (h : s.Runs u) (hs : s.keysSound) : u.keysSound := by
  induction h with
  | done => exact hs
  | goesOn active same _ ih =>
    obtain ⟨job, -, key, -⟩ := same
    refine ih (State.keysSound_congr hs rfl rfl ?_ rfl)
    simp [State.keyInProgress, active, job, key]
  | ends o g active same _ ih => exact ih (State.keysSound_endJob o g active same hs)
  | raises r _ ih => exact ih (State.keysSound_raise r hs)
  | judgesKey slot blocks _ ih => exact ih (State.keysSound_judgeKey slot blocks hs)
  | scrubs _ _ _ _ ih => exact ih (State.keysSound_queueOther rfl hs)
  | appends _ _ _ _ ih | tallies _ _ ih | fills _ _ ih | regions _ _ _ ih | flash _ _ ih => exact ih hs

/-- A job that starts is the head of the waiting ones; a KEY_STORE builds its entry of the class that is staged (R162). -/
theorem State.keysSound_begun {s : State} {j : Job} {t : List Job} {d : JobData} (idle : s.seq.active = none)
    (waits : s.seq.waiting = j :: t) (fresh : d.fresh s j) (h : s.keysSound) :
    (State.begun { s with seq := { s.seq with waiting := t } } j d).keysSound := by
  obtain ⟨len, law, slotIn, jobs, apart, -⟩ := h
  have started : State.keysSound (State.withActive { s with seq := { s.seq with waiting := t } } (freshJob j d [])) := by
    have list : State.keyJobs (State.withActive { s with seq := { s.seq with waiting := t } } (freshJob j d [])) = s.keyJobs := by
      simp only [State.keyJobs_eq, State.keyInProgress, idle, waits]
      rfl
    refine ⟨len, law, slotIn, by rw [list]; exact jobs, by rw [list]; exact apart, fun a ha store => ?_⟩
    cases ha
    obtain ⟨bytes, hkey⟩ := fresh.2 store
    refine ⟨_, _, hkey, ?_⟩
    have mem : j ∈ s.keyJobs := by
      have isKey : j.isKey = true := by simp [Job.isKey, show j.kind = .keyStore from store]
      simp [State.keyJobs_eq, State.keyInProgress, idle, waits, isKey]
    exact ((jobs j mem).2.2 store).2.2.symm
  unfold State.begun
  split
  · exact State.keysSound_congr started rfl rfl rfl rfl
  · exact started

/-- A key job that is queued makes its slot PENDING for it (R161, R164). -/
theorem State.keysSound_queueKey {s u : State} {j : Job} {e : KeyEntry} (h : s.keysSound)
    (free : (s.keyEntry j.slot).state ≠ .pending) (inside : j.slot < 16) (admitted : s.admits j.slot e)
    (pending : e.state = .pending) (erasing : e.erasing = decide (j.kind = .keyErase))
    (key : j.isKey = true)
    (keys : u.keys = (s.setKey j.slot e).keys) (active : u.seq.active = s.seq.active)
    (waiting : u.seq.waiting = s.seq.waiting ++ [j])
    (staging : j.kind = .keyErase ∧ u.staging = s.staging ∨ s.staging.state ≠ .held ∧ u.staging.state = .held ∧
      u.staging.slot = j.slot ∧ e.cls = u.staging.cls) : u.keysSound := by
  have ⟨len, law, slotIn, jobs, apart, built⟩ := h
  obtain ⟨-, law', -, jobs', -, built'⟩ := State.keysSound_setKey h free admitted
  have entry : ∀ i, u.keyEntry i = (s.setKey j.slot e).keyEntry i := fun i => by
    unfold State.keyEntry
    rw [keys]
  have same : (s.setKey j.slot e).keyEntry j.slot = e := State.keyEntry_setKey_same e (len.symm ▸ inside)
  have list : u.keyJobs = s.keyJobs ++ [j] := by
    simp [State.keyJobs_eq, State.keyInProgress, active, waiting, List.filter_append, key]
  have noStore : s.staging.state ≠ .held → ∀ k ∈ s.keyJobs, k.kind ≠ .keyStore :=
    fun idle k hk store => idle ((jobs k hk).2.2 store).1
  refine ⟨by rw [keys]; exact (List.length_set ..).trans len, ?_, ?_, ?_, ?_, ?_⟩
  · unfold State.keyLaw at *
    simpa only [entry] using law'
  · obtain ⟨-, e⟩ | ⟨-, -, e, -⟩ := staging
    · rw [e]; exact slotIn
    · rw [e]; exact inside
  · rw [list]
    intro k hk
    obtain hk | hk := List.mem_append.1 hk
    · obtain ⟨p, er, store⟩ := jobs' k hk
      unfold State.keyJobSound
      rw [entry]
      refine ⟨p, er, fun isStore => ?_⟩
      obtain ⟨-, e⟩ | ⟨idle, -⟩ := staging
      · rw [e]; exact store isStore
      · exact absurd isStore (noStore idle k hk)
    · obtain rfl := List.mem_singleton.1 hk
      unfold State.keyJobSound
      rw [entry, same]
      refine ⟨pending, erasing, fun isStore => ?_⟩
      obtain ⟨isErase, -⟩ | ⟨-, held, slot, cls⟩ := staging
      · rw [isErase] at isStore; cases isStore
      · exact ⟨held, slot, cls⟩
  · rw [list, List.pairwise_append]
    refine ⟨apart, List.pairwise_singleton _ _, fun k hk i hi => ?_⟩
    obtain rfl := List.mem_singleton.1 hi
    exact fun e => free (e ▸ (jobs k hk).1)
  · intro a ha store
    rw [entry]
    exact built' a (active ▸ ha) store

theorem State.keysSound_staging {s : State} {g : Staging} (h : s.keysSound) (free : s.staging.state ≠ .held)
    (inside : g.slot < 16) : State.keysSound { s with staging := g } := by
  obtain ⟨len, law, -, jobs, apart, built⟩ := h
  refine ⟨len, law, inside, fun j hj => ?_, apart, built⟩
  obtain ⟨pending, erasing, store⟩ := jobs j hj
  exact ⟨pending, erasing, fun isStore => absurd (store isStore).1 free⟩

theorem State.keysSound_reset {s : State} (h : s.keysSound) :
    State.keysSound { s with staging := s.staging.resetSession } := by
  unfold Staging.resetSession
  split
  · exact h
  · exact State.keysSound_staging h (by simp [*]) (by decide)
  · exact State.keysSound_staging h (by simp [*]) (by decide)
  · exact h

theorem State.keysSound_judged {s u : State} {r : Result} (h : s.Judged u r) (hs : s.keysSound) : u.keysSound := by
  have ⟨len, law, slotIn, jobs, apart, built⟩ := hs
  cases h with
  | reset =>
    have cleared := State.keysSound_reset hs
    unfold judgeResetSession
    obtain e | ⟨i, -, -, -, e⟩ := State.discardWaiting_cases _ <;> rw [e]
    · exact cleared
    · rw [State.discardFrame_eq]; exact cleared
  | frameOpen | zones | frameAbandon =>
    exact State.keysSound_congr hs (by simp) (by simp) (by simp [State.keyInProgress]) (by simp)
  | frameClose => exact State.keysSound_congr hs (by simp) (by simp) (by simp [State.keyInProgress]) (by simp)
  | rollback => unfold State.popHistory; split <;> exact hs
  | staging _ free inside =>
    exact State.keysSound_staging hs free (inside.elim id fun e => e ▸ slotIn)
  | job _ plain => exact State.keysSound_queueOther (by simp [Job.isKey, plain]) hs
  | closeOut tag _ => exact State.keysSound_queueOther (j := plainJob .closeOut tag) rfl hs
  | keyStore tag _ complete idle untaken =>
    exact State.keysSound_queueKey (j := { kind := .keyStore, tag := tag, slot := s.staging.slot, sector := 0 })
      (e := (s.keyEntry s.staging.slot).pend s.staging.cls false) hs idle slotIn
      (State.admits_of_untaken len untaken) rfl rfl rfl rfl rfl rfl
      (.inr ⟨by rw [complete]; nofun, rfl, rfl, rfl⟩)
  | @keyErase tag slot _ inside idle =>
    refine State.keysSound_queueKey (j := { kind := .keyErase, tag := tag, slot := slot, sector := 0 })
      (e := (s.keyEntry slot).pend (if (s.keyEntry slot).state = .present then (s.keyEntry slot).cls else 0) true) hs idle inside
      ?_ rfl rfl rfl rfl rfl rfl (.inl ⟨rfl, rfl⟩)
    intro c pos held j hj ne
    obtain ⟨-, cls⟩ := (KeyEntry.holds_iff _ c).1 held
    simp only [KeyEntry.pend] at cls
    split at cls
    · rename_i present
      exact law slot j c inside hj ne.symm pos (((s.keyEntry slot).holds_iff c).2 ⟨.inl present, cls⟩)
    · omega
  | _ => exact hs

/-! ## Every operation -/

theorem State.keysSound_ofReset {s : State} (keys : s.keys = List.replicate 16 KeyEntry.empty) (staging : s.staging = Staging.idle)
    (idle : s.seq.active = none) (none : s.seq.waiting = []) : s.keysSound := by
  have jobs : s.keyJobs = [] := by simp [State.keyJobs_eq, State.keyInProgress, idle, none]
  have entry : ∀ i, s.keyEntry i = KeyEntry.empty := by
    intro i
    rw [State.keyEntry, keys, List.getD_eq_getElem?_getD, List.getElem?_replicate]
    split <;> rfl
  refine ⟨by rw [keys]; rfl, fun i j c _ _ _ _ held => ?_, by rw [staging]; decide, by rw [jobs]; exact nofun, by
    rw [jobs]; exact List.Pairwise.nil, fun a ha => ?_⟩
  · rw [entry] at held
    cases held
  · rw [idle] at ha
    cases ha

theorem State.keyInProgress_cutRead (s : State) : s.cutRead.keyInProgress = s.keyInProgress := by
  unfold State.keyInProgress State.cutRead
  cases s.seq.active with
  | none => rfl
  | some a =>
    obtain ⟨job, -, -, data, -⟩ := a.cut_keeps
    simp [job, data]

/-- What the load keeps: the law, and no job, nor a slot that is PENDING for one. -/
def State.keysLoading (s : State) : Prop :=
  s.keysSound ∧ s.seq.active = none ∧ s.seq.waiting = [] ∧ ∀ i, (s.keyEntry i).state ≠ .pending

theorem State.keysLoading_setKey {s : State} {slot : Nat} {e : KeyEntry} (h : s.keysLoading) (admitted : s.admits slot e)
    (he : e.state ≠ .pending) : (s.setKey slot e).keysLoading := by
  obtain ⟨sound, idle, none, free⟩ := h
  refine ⟨State.keysSound_setKey sound (free slot) admitted, idle, none, fun i => ?_⟩
  by_cases his : i = slot
  · subst his
    by_cases inside : i < s.keys.length
    · rw [State.keyEntry_setKey_same e inside]
      exact he
    · exact fun pending => inside (by simpa [State.setKey] using State.pending_inside pending)
  · rw [State.keyEntry_setKey_other e his]
    exact free i

theorem State.keysLoading_raise {s : State} (r : Report) (h : s.keysLoading) : (s.raise r).keysLoading := by
  obtain ⟨sound, idle, none, free⟩ := h
  exact ⟨State.keysSound_raise r sound, by rw [State.raise_seq]; exact idle, by rw [State.raise_seq]; exact none, by
    unfold State.keyEntry
    rw [State.raise_keys]
    exact free⟩

theorem keyHeader_present {slot : Nat} {d : Decode} {data : List Byte} {e : KeyEntry} (h : keyHeader slot d data = some e) :
    e.state = .present := by
  unfold keyHeader at h
  split at h
  · cases h
    rfl
  · cases h

theorem State.keysLoading_loadKey {s : State} (slot : Nat) (block : List Byte) (h : s.keysLoading) :
    (s.loadKey slot block).keysLoading := by
  have damaged : ∀ e : KeyEntry, (s.damageKey slot e).keysLoading := fun e =>
    State.keysLoading_raise _ (State.keysLoading_setKey h (s.admits_of_unheld slot ⟨nofun, nofun⟩) nofun)
  unfold State.loadKey
  dsimp only
  split
  · exact State.keysLoading_setKey h (s.admits_of_unheld slot ⟨nofun, nofun⟩) nofun
  split
  · exact damaged _
  · rename_i e he
    split
    · exact damaged _
    · exact State.keysLoading_setKey h (State.admits_of_untaken h.1.1 (Bool.eq_false_of_not_eq_true ‹_›))
        (by rw [keyHeader_present he]; nofun)

theorem State.keysLoading_ofReset {s : State} (keys : s.keys = List.replicate 16 KeyEntry.empty)
    (staging : s.staging = Staging.idle) (idle : s.seq.active = none) (none : s.seq.waiting = []) : s.keysLoading := by
  refine ⟨State.keysSound_ofReset keys staging idle none, idle, none, fun i => ?_⟩
  rw [State.keyEntry, keys, List.getD_eq_getElem?_getD, List.getElem?_replicate]
  split <;> nofun

theorem State.keysSound_powerOn {s : State} (i : PowerOnInput) : (s.powerOn i).keysSound := by
  refine State.powerOn_keeps (L := State.keysLoading) (State.keysLoading_ofReset rfl rfl rfl rfl)
    (fun _ _ _ _ => State.keysLoading_ofReset rfl rfl rfl rfl) (fun x hx => State.keysLoading_raise _ hx)
    (fun x r hx => State.keysLoading_raise r hx) (fun x l m hx => ?_) (fun x k b hx => State.keysLoading_loadKey k b hx)
    (fun x l m hx => ?_) (fun _ _ hx => hx) (fun _ hx => hx.1) (fun x hx => ?_)
  · unfold State.loadGrid
    split
    · rw [State.resume_eq]; exact hx
    · exact hx
  · rw [State.loadRegion_eq]; exact hx
  · exact State.startDue_keeps (P := State.keysSound) (fun _ _ _ _ idle waits fresh hs => State.keysSound_begun idle waits fresh hs)
      (fun _ _ run hs => State.keysSound_runs run hs) (State.keysSound_queueOther (j := plainJob .scan 0) rfl hx.1)

/-- Every part keeps the law of key classes. -/
theorem State.keysSound_parts : Parts (fun _ => True) State.keysSound where
  powerOn i _ _ := State.keysSound_powerOn i
  powerLoss _ _ _ := State.keysSound_ofReset rfl rfl rfl rfl
  laneReset {s} taken _ _ h := by
    have dropped : (s.dropTxn taken).keysSound :=
      State.dropTxn_keeps taken (fun t _ _ hx => by rw [State.flashTakes_eq]; exact hx)
        (fun _ _ hx => by rw [State.forgetProfile_eq]; exact hx) h
    refine State.keysSound_congr dropped ((State.releasePanel_keys _).trans rfl) ((State.releasePanel_staging _).trans rfl) ?_ ?_
    · exact (congrArg (Option.map fun a : Active => (a.job, a.data.key)) (congrArg Sequencer.active (State.releasePanel_seq _))).trans
        (State.keyInProgress_cutRead _)
    · exact (congrArg (fun q : Sequencer => q.waiting.filter Job.isKey) (State.releasePanel_seq _)).trans rfl
  resetLine _ h := h
  pfwLine _ h := h
  flashTimer h := h
  tick h := h
  lapsed _ _ h := h
  parks _ _ h := State.keysSound_queueOther (j := plainJob .park 0) rfl h
  raise r h := State.keysSound_raise r h
  withdraw h := h
  select {s} c a _ _ h := by
    obtain ⟨t, -, ⟨-, e⟩ | ⟨-, _, _, e⟩⟩ := s.select_cases c a <;> rw [e]
    · exact h
    · exact State.keysSound_congr h rfl rfl s.keyInProgress_cutRead rfl
  passes hp h := by
    obtain rfl | ⟨_, _, _, _, _, _, _, _, _, rfl⟩ := hp <;> exact h
  ignored _ _ h := h
  released h := State.keysSound_congr h (State.releasePanel_keys _) (State.releasePanel_staging _)
    (by simp [State.keyInProgress]) (by simp)
  charge _ _ _ h := h
  watches _ h := h
  shadow _ h := h
  forget a h := by rw [State.forgetProfile_eq]; exact h
  takes t h := by rw [State.flashTakes_eq]; exact h
  draw h := h
  note _ _ h := h
  judged hj h := State.keysSound_judged hj h
  begun idle waits fresh h := State.keysSound_begun idle waits fresh h
  runs run h := State.keysSound_runs run h
  takeFrame h := State.keysSound_congr h (by simp) (by simp) (by simp [State.keyInProgress]) (by simp)
  endComputing {s} h := by
    obtain e | ⟨i, -, -, ⟨-, e⟩ | ⟨-, e⟩⟩ := s.endComputing_cases <;> rw [e]
    · exact h
    all_goals exact State.keysSound_congr h (by simp) (by simp) (by simp [State.keyInProgress]) (by simp)
  publishWaiting h := State.keysSound_congr h (by simp) (by simp) (by simp [State.keyInProgress]) (by simp)
  begins {s a} p f _ active _ h := by
    refine State.keysSound_congr h rfl rfl ?_ rfl
    rw [State.withRecord_eq]
    simp [State.keyInProgress, active]

/-- Settles O13. -/
theorem stepsKeepTheLawOfKeyClasses : Obligations.StepsKeepTheLawOfKeyClasses :=
  fun _ _ hs h => State.keysSound_parts.kept.step (fun _ _ h => h) (fun _ h => h) hs h

end Sys2Proof.Machine
end

section
/-! Each commit record carries on from the one before it (R136, R138): the statement O14. -/

namespace Sys2Proof.Machine

theorem CommitRecord.carriesOn_refl (r : CommitRecord) : r.carriesOn r := ⟨le_rfl, id, id, id, id⟩

theorem CommitRecord.carriesOn_trans {r q p : CommitRecord} (h : r.carriesOn q) (h' : q.carriesOn p) : r.carriesOn p := by
  obtain ⟨gen, closed, uni, park, region⟩ := h
  obtain ⟨gen', closed', uni', park', region'⟩ := h'
  exact ⟨gen'.trans gen, closed ∘ closed', uni ∘ uni', park ∘ park', region ∘ region'⟩

/-- The record an append builds has the next ring generation, and every flag of the latest one (R136, R138). -/
theorem State.buildRecord_carriesOn {s : State} {x : Latest} (a : Active) (h : s.latest = some x) :
    (s.buildRecord a).carriesOn x.record := by
  have base : s.recordBase = x.record := by rw [State.recordBase, h]
  have gen : s.nextRingGen = x.record.ringGen + 1 := by rw [State.nextRingGen, h]
  have common : ∀ k, (s.commonRecord k).carriesOn x.record := fun k => by
    unfold State.commonRecord
    rw [base, gen]
    exact ⟨Nat.le_succ _, id, id, id, id⟩
  unfold State.buildRecord
  cases a.job.kind with
  | scan | scrub => rw [base]; exact x.record.carriesOn_refl
  | regionSelect =>
    dsimp only
    split
    · obtain ⟨g, closed, uni, park, -⟩ := common .region
      exact ⟨g, closed, uni, park, fun _ => rfl⟩
    · exact common .region
  | commitGrid =>
    obtain ⟨g, closed, -, park, region⟩ := common .uniformity
    exact ⟨g, closed, fun _ => rfl, park, region⟩
  | park =>
    obtain ⟨g, closed, uni, -, region⟩ := common .park
    exact ⟨g, closed, uni, fun _ => rfl, region⟩
  | closeOut =>
    obtain ⟨g, -, uni, park, region⟩ := common .closeOut
    exact ⟨g, fun _ => rfl, uni, park, region⟩
  | keyStore | keyErase => exact common .keys

/-- What the sequencer knows of records: the one in the making, and the latest. -/
def State.recordView (s : State) : Option (Option CommitRecord) × Option Latest :=
  (s.seq.active.map fun a => a.data.record, s.latest)

theorem State.recordSound_iff (s : State) :
    s.recordSound ↔ ∀ r x, s.recordView.1 = some (some r) → s.latest = some x → r.carriesOn x.record := by
  unfold State.recordSound State.recordView
  constructor
  · intro h r x hr hx
    obtain ⟨a, ha, e⟩ := Option.map_eq_some_iff.1 hr
    exact h a r x ha e hx
  · intro h a r x ha hr hx
    exact h r x (by rw [ha, Option.map_some, hr]) hx

theorem State.recordSound_idle {s : State} (h : s.seq.active = none) : s.recordSound := by
  intro a _ _ ha
  rw [h] at ha
  cases ha

section
variable (L : Option Latest → Prop)

/-- The record in the making carries on from the latest, of which `L` holds. -/
def State.recordsCarry (s : State) : Prop := s.recordSound ∧ L s.latest

/-- `L` goes over from a record to each that carries on from it. -/
def carriesOver : Prop :=
  (∀ n r, L none → L (some { slot := n, record := r })) ∧
    ∀ n r x, r.carriesOn x.record → L (some x) → L (some { slot := n, record := r })

variable {L} {s u : State}

theorem State.recordsCarry_congr (h : s.recordsCarry L) (e : u.recordView = s.recordView) : u.recordsCarry L := by
  obtain ⟨sound, latest⟩ := h
  have same : u.latest = s.latest := congrArg Prod.snd e
  rw [State.recordSound_iff] at sound
  exact ⟨(State.recordSound_iff u).2 (by rw [e, same]; exact sound), by rw [same]; exact latest⟩

theorem State.recordView_raise (s : State) (r : Report) : (s.raise r).recordView = s.recordView := by
  rw [State.raise_eq]
  rfl

theorem State.recordsCarry_runs (on : carriesOver L) (h : s.Runs u) (hs : s.recordsCarry L) : u.recordsCarry L := by
  induction h with
  | done => exact hs
  | goesOn active same _ ih =>
    obtain ⟨-, -, -, record⟩ := same
    exact ih (State.recordsCarry_congr hs (by simp [State.recordView, active, record]))
  | @ends s u a b o g active _ _ ih =>
    obtain ⟨idle, -, latest, -⟩ := s.endJob_fields b o g
    exact ih ⟨State.recordSound_idle idle, by rw [latest]; exact hs.2⟩
  | @appends s u a n r active record _ ih =>
    obtain ⟨sound, latest⟩ := hs
    obtain ⟨first, next⟩ := on
    refine ih ⟨fun b q x hb hq hx => ?_, ?_⟩
    · cases hx
      have same : a = b := Option.some.inj (active.symm.trans hb)
      subst same
      obtain rfl : r = q := Option.some.inj (record.symm.trans hq)
      exact r.carriesOn_refl
    · cases hx : s.latest with
      | none => exact first n r (hx ▸ latest)
      | some x => exact next n r x (sound a r x active record hx) (hx ▸ latest)
  | raises r _ ih => exact ih (State.recordsCarry_congr hs (State.recordView_raise _ r))
  | judgesKey slot blocks _ ih => exact ih (by rw [State.judgeKey_eq]; exact hs)
  | tallies _ _ ih | fills _ _ ih | scrubs _ _ _ _ ih | regions _ _ _ ih | flash _ _ ih => exact ih hs

theorem State.recordsCarry_begun {j : Job} {d : JobData} (fresh : d.record = none) (h : s.recordsCarry L) :
    (s.begun j d).recordsCarry L := by
  have latest : (s.begun j d).latest = s.latest := by
    unfold State.begun
    split <;> rfl
  refine ⟨fun a r x ha hr _ => ?_, by rw [latest]; exact h.2⟩
  have active : (s.begun j d).seq.active = some (freshJob j d []) := rfl
  obtain rfl : freshJob j d [] = a := Option.some.inj (active.symm.trans ha)
  exact absurd (fresh.symm.trans hr) nofun

theorem State.Judged.latest {r : Result} (h : s.Judged u r) : u.latest = s.latest := by
  cases h with
  | reset =>
    unfold judgeResetSession
    obtain e | ⟨i, -, -, -, e⟩ := State.discardWaiting_cases _ <;> rw [e]
    rw [State.discardFrame_latest]
  | frameOpen | zones | frameAbandon => rw [State.setFrame_latest]
  | frameClose => rw [State.setFrame_latest, State.takeFrame_latest]
  | rollback => unfold State.popHistory; split <;> rfl
  | _ => rfl

theorem State.recordView_cutRead (s : State) : s.cutRead.recordView = s.recordView := by
  unfold State.recordView State.cutRead
  cases s.seq.active with
  | none => rfl
  | some a =>
    obtain ⟨-, -, -, data, -⟩ := a.cut_keeps
    simp [data]

theorem State.recordsCarry_powerOn (on : carriesOver L) (i : PowerOnInput) (all : ∀ o, L o) : (s.powerOn i).recordsCarry L := by
  refine State.powerOn_keeps (L := fun x => x.seq.active = none) rfl (fun _ _ _ _ => rfl) (fun x hx => ?_) (fun x r hx => ?_)
    (fun x l m hx => ?_) (fun x k b hx => ?_) (fun x l m hx => ?_) (fun _ _ hx => hx)
    (fun _ hx => ⟨State.recordSound_idle hx, all _⟩) (fun x hx => ?_)
  · exact (congrArg Sequencer.active (State.raise_seq _ _)).trans hx
  · exact (congrArg Sequencer.active (State.raise_seq _ _)).trans hx
  · unfold State.loadGrid
    split
    · rw [State.resume_eq]; exact hx
    · exact hx
  · rw [State.loadKey_eq]; exact hx
  · rw [State.loadRegion_eq]; exact hx
  · exact State.startDue_keeps (P := State.recordsCarry L) (fun _ _ _ _ _ _ fresh hs => State.recordsCarry_begun fresh.1 hs)
      (fun _ _ run hs => State.recordsCarry_runs on run hs) ⟨State.recordSound_idle hx, all _⟩

/-- Every part but a change of power carries the records on; a change of power where `L` asks nothing. -/
theorem State.recordsCarry_parts {A : Instr → Prop} (on : carriesOver L) (power : ∀ c, A c → powers c = true → ∀ o, L o) :
    Parts A (State.recordsCarry L) where
  powerOn i hA _ := State.recordsCarry_powerOn on i (power _ hA rfl)
  powerLoss _ hA _ := ⟨State.recordSound_idle rfl, power _ hA rfl _⟩
  laneReset {s} taken _ _ h := by
    have dropped : (s.dropTxn taken).recordsCarry L :=
      State.dropTxn_keeps taken (fun t _ _ hx => by rw [State.flashTakes_eq]; exact hx)
        (fun _ _ hx => by rw [State.forgetProfile_eq]; exact hx) h
    refine State.recordsCarry_congr dropped (Eq.trans (Prod.ext ?_ ?_) (State.recordView_cutRead _))
    · exact congrArg (fun q : Sequencer => q.active.map fun a => a.data.record) (State.releasePanel_seq _)
    · exact State.releasePanel_latest _
  resetLine _ h := h
  pfwLine _ h := h
  flashTimer h := h
  tick h := h
  lapsed _ _ h := h
  parks _ _ h := h
  raise r h := State.recordsCarry_congr h (State.recordView_raise _ r)
  withdraw h := h
  select {s} c a _ _ h := by
    obtain ⟨t, -, ⟨-, e⟩ | ⟨-, _, _, e⟩⟩ := s.select_cases c a <;> rw [e]
    · exact h
    · exact State.recordsCarry_congr h s.recordView_cutRead
  passes hp h := by
    obtain rfl | ⟨_, _, _, _, _, _, _, _, _, rfl⟩ := hp <;> exact h
  ignored _ _ h := h
  released h := State.recordsCarry_congr h (by simp [State.recordView])
  charge _ _ _ h := h
  watches _ h := h
  shadow _ h := h
  forget a h := by rw [State.forgetProfile_eq]; exact h
  takes t h := by rw [State.flashTakes_eq]; exact h
  draw h := h
  note _ _ h := h
  judged hj h := State.recordsCarry_congr h (by rw [State.recordView, hj.active, hj.latest]; rfl)
  begun _ _ fresh h := State.recordsCarry_begun fresh.1 h
  runs run h := State.recordsCarry_runs on run h
  takeFrame h := State.recordsCarry_congr h (by simp [State.recordView])
  endComputing {s} h := by
    obtain e | ⟨i, -, -, ⟨-, e⟩ | ⟨-, e⟩⟩ := s.endComputing_cases <;> rw [e]
    · exact h
    all_goals exact State.recordsCarry_congr h (by simp [State.recordView])
  publishWaiting h := State.recordsCarry_congr h (by simp [State.recordView])
  begins {s a} p f _ active _ h := by
    obtain ⟨sound, latest⟩ := h
    refine ⟨fun b r x hb hr hx => ?_, latest⟩
    cases hb
    change (s.withRecord a).data.record = some r at hr
    unfold State.withRecord at hr
    split at hr
    · cases hr
      exact State.buildRecord_carriesOn a hx
    · exact sound a r x active hr hx

end

/-- Settles O14. -/
theorem commitRecordsCarryOn : Obligations.CommitRecordsCarryOn := by
  intro c s t hs h
  constructor
  · have parts : Parts (fun _ => True) (State.recordsCarry fun _ => True) :=
      State.recordsCarry_parts ⟨fun _ _ _ => trivial, fun _ _ _ _ _ => trivial⟩ (fun _ _ _ _ => trivial)
    obtain ⟨u, hu, rfl⟩ := parts.kept.exec trivial h ⟨hs, trivial⟩
    exact hu.1
  · intro stays x hx
    have on : carriesOver (fun o => ∃ y, o = some y ∧ y.record.carriesOn x.record) := by
      refine ⟨fun _ _ ⟨_, e, _⟩ => (nomatch e), fun n r y carries ⟨z, hz, onward⟩ => ⟨_, rfl, ?_⟩⟩
      cases hz
      exact CommitRecord.carriesOn_trans carries onward
    have parts := State.recordsCarry_parts (A := fun c => powers c = false) on
      (fun c stays moves => absurd (stays.symm.trans moves) nofun)
    obtain ⟨u, hu, rfl⟩ := parts.kept.exec stays h ⟨hs, x, hx, x.record.carriesOn_refl⟩
    exact hu.2

end Sys2Proof.Machine
end

section
/-! No command but the sequencer's own steps and a loss of power changes a guarded byte (R5, R7, R8, R14): the statement O15. -/

namespace Sys2Proof.Machine

/-! ## Sectors and windows -/

/-- The windows of a valid layout are made of whole sectors: two addresses of one sector lie in one window (R16). -/
theorem Layout.windowOf_sector {l : Layout} (hl : l.valid = true) {x y : Nat} (h : x / 4096 = y / 4096) :
    l.windowOf x = l.windowOf y := by
  obtain ⟨aligned, -⟩ := l.valid_iff.1 hl
  have inside : ∀ w ∈ nineWindows, l.inWindow w x = l.inWindow w y := by
    intro w hw
    obtain ⟨base, -⟩ := aligned w hw
    have sectors : l.base w % 4096 = 0 ∧ w.size % 4096 = 0 := by
      cases w <;> exact ⟨by simp only [Window.alignment] at base; omega, rfl⟩
    rw [Bool.eq_iff_iff, Layout.inWindow_iff, Layout.inWindow_iff]
    omega
  unfold Layout.windowOf
  rw [List.find?_congr inside]

theorem Window.guardedArea_ne {w : Window} (h : w.guardedArea = true) : w ≠ .pass ∧ w ≠ .profiles ∧ w ≠ .aperture := by
  refine ⟨?_, ?_, ?_⟩ <;> rintro rfl <;> cases h

/-- A guarded address is one no program or erase is forwarded to, and no record (R5, R7). -/
theorem State.guards_not_forwards {s : State} {x y : Nat} (valid : ∀ l, s.layout = some l → l.valid = true)
    (h : s.guards x = true) (sector : x / 4096 = y / 4096) : s.forwards y = false := by
  unfold State.guards at h
  simp only [Bool.and_eq_true, decide_eq_true_eq] at h
  obtain ⟨mode, area⟩ := h
  split at area
  · rename_i l hl
    obtain ⟨pass, profiles, aperture⟩ := Window.guardedArea_ne area
    rw [Layout.windowOf_sector (valid l hl) sector] at pass profiles aperture
    have window : s.windowOf y = l.windowOf y := by
      unfold State.windowOf
      split
      · exact absurd ‹_› mode
      · simp_all
      · simp_all
      · simp_all
    unfold State.forwards
    rw [window]
    split
    · exact absurd ‹_› pass
    · exact absurd ‹_› profiles
    · rfl
  · cases area

theorem State.guards_bypass {s : State} (x : Nat) (h : s.mode = .bypass) : s.guards x = false := by
  simp [State.guards, h]

/-- A transaction that is forwarded reaches no guarded address (R7). -/
theorem State.treatmentOf_reaches {s : State} {t : Txn} {occ : Bool} (valid : ∀ l, s.layout = some l → l.valid = true)
    (forwarded : s.treatmentOf t.command t.addr occ = .forwarded) {x : Nat} (h : s.guards x = true) : t.reaches x = false := by
  have sector : ∀ y, s.forwards y = true → x / 4096 ≠ y / 4096 := fun y hy e =>
    absurd (State.guards_not_forwards valid h e) (by rw [hy]; nofun)
  have notBypass : s.mode ≠ .bypass := fun e => absurd h (by rw [State.guards_bypass x e]; nofun)
  unfold Txn.reaches
  cases hc : t.command with
  | pageProgram =>
    simp only [hc, State.treatmentOf] at forwarded
    split at forwarded
    · cases forwarded
    · split at forwarded
      · cases forwarded
      · have := sector t.addr (by simp_all)
        simp only [decide_eq_false_iff_not]
        omega
  | sectorErase =>
    simp only [hc, State.treatmentOf] at forwarded
    split at forwarded
    · cases forwarded
    · simpa using sector t.addr (by simp_all)
  | blockErase =>
    simp only [hc, State.treatmentOf] at forwarded
    split at forwarded
    · cases forwarded
    · split at forwarded
      · cases forwarded
      · rename_i none
        simp only [decide_eq_false_iff_not]
        intro e
        have all : s.forwards (blockOf t.addr + 4096 * (x / 4096 % 16)) = true := by
          have := List.find?_eq_none.1 none (blockOf t.addr + 4096 * (x / 4096 % 16))
            (List.mem_map.2 ⟨x / 4096 % 16, List.mem_range.2 (Nat.mod_lt _ (by decide)), rfl⟩)
          simpa using this
        refine sector _ all ?_
        unfold blockOf
        omega
  | chipErase =>
    simp only [hc, State.treatmentOf] at forwarded
    split at forwarded
    · exact absurd ‹_› notBypass
    · cases forwarded
  | unrecognised b =>
    simp only [hc, State.treatmentOf] at forwarded
    split at forwarded
    · exact absurd ‹_› notBypass
    · cases forwarded
  | _ => rfl

/-! ## What the flash takes -/

theorem Flash.get_program {f : Flash} {addr x : Nat} (data : List Byte) (wf : Memory.wf f.cells = true) (hx : x < flashSize)
    (ha : addr < flashSize) (h : x / 256 ≠ addr / 256) : Memory.get (f.program addr data).cells x = Memory.get f.cells x := by
  have outside : ∀ o, o < 256 → x ≠ (addr / 256 * 256 + o) % flashSize := by
    unfold flashSize at *
    intro o ho
    omega
  have same := Memory.get_program_outside (m := f.cells) data wf outside
  unfold Flash.program
  split
  · dsimp only
    exact same
  · rfl

theorem Flash.get_erase {f : Flash} {base len x : Nat} (wf : Memory.wf f.cells = true) (h : x < base ∨ base + len ≤ x) :
    Memory.get (f.erase base len).cells x = Memory.get f.cells x := by
  unfold Flash.erase
  split
  · exact Memory.get_erase_outside wf h
  · rfl

/-- A forwarded command changes only bytes it reaches (R3). -/
theorem State.get_flashTakes {s : State} {t : Txn} {x : Nat} (wf : Memory.wf s.flash.cells = true) (hx : x < flashSize)
    (ha : t.addr < flashSize) (h : t.reaches x = false) :
    Memory.get (s.flashTakes t).flash.cells x = Memory.get s.flash.cells x := by
  unfold Txn.reaches at h
  unfold State.flashTakes
  cases hc : t.command <;> simp only [hc, decide_eq_false_iff_not, Bool.true_eq_false] at h <;> dsimp only
  case pageProgram => exact Flash.get_program t.data wf hx ha h
  case sectorErase => exact Flash.get_erase wf (by unfold sectorOf; omega)
  case blockErase => exact Flash.get_erase wf (by unfold blockOf; omega)
  case writeEnable | writeDisable => rfl

/-! ## The transaction in progress -/

theorem State.guards_congr {s u : State} (mode : u.mode = s.mode) (layout : u.layout = s.layout) (x : Nat) :
    u.guards x = s.guards x := by
  unfold State.guards
  rw [mode, layout]

theorem State.lanesSound_congr {s u : State} (h : s.lanesSound) (mode : u.mode = s.mode) (layout : u.layout = s.layout)
    (upstream : u.upstream = s.upstream) : u.lanesSound := by
  unfold State.lanesSound
  rw [layout, upstream]
  simp only [State.guards_congr mode layout]
  exact h

/-- With no transaction in progress it is the layout alone. -/
theorem State.lanesSound_idle {s : State} (valid : ∀ l, s.layout = some l → l.valid = true) (h : s.upstream = none) :
    s.lanesSound := by
  refine ⟨valid, fun t ht => ?_⟩
  rw [h] at ht
  cases ht

theorem Txn.reaches_continues {t t' : Txn} (h : t.continues t') (x : Nat) : t'.reaches x = t.reaches x := by
  obtain ⟨-, command, addr, -⟩ := h
  unfold Txn.reaches
  rw [command, addr]

theorem State.lanesSound_passes {s u : State} (hp : s.passesTo u) (h : s.lanesSound) : u.lanesSound := by
  obtain rfl | ⟨t, t', _, _, _, _, up, cont, -, rfl⟩ := hp
  · exact h
  · obtain ⟨valid, txn⟩ := h
    obtain ⟨inside, keeps⟩ := txn t up
    refine ⟨valid, fun x hx => ?_⟩
    obtain rfl : t' = x := Option.some.inj hx
    have ⟨_, _, addr, _, treatment, _⟩ := cont
    refine ⟨addr ▸ inside, fun forwarded a ha guarded => ?_⟩
    rw [Txn.reaches_continues cont]
    exact keeps (treatment ▸ forwarded) a ha guarded

theorem State.lanesSound_select {s : State} (c : LaneCommand) {a : Nat} (ha : a < flashSize) (h : s.lanesSound) :
    (s.select c a).lanesSound := by
  obtain ⟨valid, -⟩ := h
  obtain ⟨t, ht, cases⟩ := s.select_cases c a
  have treated : ∀ x, s.guards x = true → t.treatment = .forwarded → t.reaches x = false := by
    intro x guarded forwarded
    refine State.treatmentOf_reaches (occ := s.occupied) valid ?_ guarded
    rw [ht] at forwarded ⊢
    exact forwarded
  obtain ⟨-, e⟩ | ⟨-, _, _, e⟩ := cases <;> rw [e] <;> refine ⟨valid, fun x hx => ?_⟩
  all_goals
    obtain rfl : t = x := Option.some.inj hx
    refine ⟨by rw [ht]; exact ha, fun forwarded y _ guarded => treated y guarded forwarded⟩

/-- The outer part but for the transaction, after a transaction has ended. -/
theorem State.deselect_outer (s : State) : s.deselect.mode = s.mode ∧ s.deselect.layout = s.layout ∧ s.deselect.upstream = none := by
  cases ht : s.upstream with
  | none => rw [State.deselect_idle ht]; exact ⟨rfl, rfl, ht⟩
  | some t =>
    have outer : ∀ {x u : State}, (x.mode = s.mode ∧ x.layout = s.layout ∧ x.upstream = none) → u.outer = x.outer →
        u.mode = s.mode ∧ u.layout = s.layout ∧ u.upstream = none := fun ⟨m, l, up⟩ e =>
      ⟨(State.outer_mode e).trans m, (State.outer_layout e).trans l, (State.outer_upstream e).trans up⟩
    refine State.deselect_keeps (P := fun x => x.mode = s.mode ∧ x.layout = s.layout ∧ x.upstream = none) ht
      (fun _ => ⟨rfl, rfl, rfl⟩) fun _ => ?_
    exact State.endTxn_keeps (P := fun x => x.mode = s.mode ∧ x.layout = s.layout ∧ x.upstream = none)
      (fun _ _ _ _ hx => hx) (fun _ hx => hx) (fun x r hx => outer hx (x.outer_raise r)) (fun _ _ hx => hx)
      (fun x a hx => by rw [State.forgetProfile_eq]; exact hx) (fun _ x hx => by rw [State.flashTakes_eq]; exact hx)
      (fun _ x hx => outer hx (x.outer_takeProgram _ _)) (outer (x := { s with upstream := none }) ⟨rfl, rfl, rfl⟩ (State.outer_releasePanel _))

theorem State.lanesSound_deselect {s : State} (h : s.lanesSound) : s.deselect.lanesSound := by
  obtain ⟨-, layout, idle⟩ := s.deselect_outer
  exact State.lanesSound_idle (by rw [layout]; exact h.1) idle

theorem State.laneReset_outer (s : State) (taken : Bool) :
    (s.laneReset taken).mode = s.mode ∧ (s.laneReset taken).layout = s.layout ∧ (s.laneReset taken).upstream = none := by
  have dropped : (s.dropTxn taken).mode = s.mode ∧ (s.dropTxn taken).layout = s.layout :=
    State.dropTxn_keeps (P := fun x => x.mode = s.mode ∧ x.layout = s.layout) taken
      (fun t _ _ hx => by rw [State.flashTakes_eq]; exact hx) (fun _ _ hx => by rw [State.forgetProfile_eq]; exact hx) ⟨rfl, rfl⟩
  exact ⟨(State.releasePanel_mode _).trans dropped.1, (State.releasePanel_layout _).trans dropped.2, State.releasePanel_upstream _⟩

theorem descriptorLayout_valid {block : List Byte} {l : Layout} (h : descriptorLayout block = some l) : l.valid = true := by
  unfold descriptorLayout at h
  dsimp only at h
  split at h
  · rename_i sound
    cases h
    simp only [Bool.and_eq_true] at sound
    exact sound.2
  · cases h

theorem State.lanesSound_powerOn {s : State} (i : PowerOnInput) : (s.powerOn i).lanesSound := by
  have outer : ∀ {x u : State}, x.lanesSound → u.outer = x.outer → u.lanesSound := fun hx e =>
    State.lanesSound_congr hx (State.outer_mode e) (State.outer_layout e) (State.outer_upstream e)
  refine State.powerOn_keeps (L := State.lanesSound) (State.lanesSound_idle nofun rfl)
    (fun l _ hl _ => State.lanesSound_idle (fun _ e => Option.some.inj e ▸ descriptorLayout_valid hl) rfl)
    (fun x hx => outer (x := { x with pfw := true }) hx (State.outer_raise _ _)) (fun x r hx => outer hx (x.outer_raise r))
    (fun x l m hx => outer hx (x.outer_loadGrid l m)) (fun x k b hx => outer hx (x.outer_loadKey k b))
    (fun x l m hx => outer hx (x.outer_loadRegion l m)) (fun x b hx => ?_) (fun _ hx => hx)
    (fun x hx => outer (x := x.queueJob (plainJob .scan 0)) hx (State.outer_startDue _))
  obtain ⟨valid, -⟩ := hx
  refine ⟨valid, fun t ht => ?_⟩
  cases b with
  | false => cases ht
  | true =>
    cases ht
    exact ⟨(by decide), nofun⟩

/-- Every command keeps the transaction in progress from the guarded areas. -/
theorem State.lanesSound_kept : Kept (fun _ => True) State.lanesSound :=
  Kept.ofOuter (fun hs e => State.lanesSound_congr hs (State.outer_mode e) (State.outer_layout e) (State.outer_upstream e))
    (fun i _ _ => State.lanesSound_powerOn i) (fun _ _ _ => State.lanesSound_idle nofun rfl) (fun _ h => h)
    (fun {s} taken _ _ h => by
      obtain ⟨-, layout, idle⟩ := s.laneReset_outer taken
      exact State.lanesSound_idle (by rw [layout]; exact h.1) idle)
    (fun _ h => h) (fun h => h) (fun _ _ _ h => h) (fun c _ ha _ h => State.lanesSound_select c ha h)
    (fun hp h => State.lanesSound_passes hp h) (fun h => State.lanesSound_deselect h)

/-! ## The guarded bytes -/

/-- The flash holds at the addresses `s` guards what it held in `s`. -/
def State.standsAsIn (s u : State) : Prop :=
  Memory.wf u.flash.cells = true ∧
    ∀ a, a < flashSize → s.guards a = true → Memory.get u.flash.cells a = Memory.get s.flash.cells a

/-- The guarded bytes stand, and the transaction in progress cannot reach them. -/
def State.guardsFrom (s u : State) : Prop := u.lanesSound ∧ u.mode = s.mode ∧ u.layout = s.layout ∧ s.standsAsIn u

theorem State.standsAsIn_flashTakes {s u x : State} {t : Txn} (h : s.guardsFrom u) (ht : u.upstream = some t)
    (forwarded : t.treatment = .forwarded) (hx : s.standsAsIn x) : s.standsAsIn (x.flashTakes t) := by
  obtain ⟨⟨-, txn⟩, mode, layout, -⟩ := h
  obtain ⟨wf, same⟩ := hx
  obtain ⟨inside, keeps⟩ := txn t ht
  refine ⟨State.flashTakes_wf t wf, fun a ha guarded => ?_⟩
  rw [State.get_flashTakes wf ha inside (keeps forwarded a ha ((State.guards_congr mode layout a).trans guarded))]
  exact same a ha guarded

theorem State.standsAsIn_congr {s u x : State} (h : s.standsAsIn u) (e : x.flash.cells = u.flash.cells) : s.standsAsIn x := by
  unfold State.standsAsIn
  rw [e]
  exact h

theorem State.standsAsIn_forget {s x : State} (a : Nat) (h : s.standsAsIn x) : s.standsAsIn (x.forgetProfile a) := by
  rw [State.forgetProfile_eq]
  exact h

theorem State.standsAsIn_deselect {s u : State} (h : s.guardsFrom u) : s.standsAsIn u.deselect := by
  have ⟨_, _, _, stands⟩ := h
  have outer : ∀ {x y : State}, s.standsAsIn x → y.outer = x.outer → s.standsAsIn y := fun hx e =>
    State.standsAsIn_congr hx (State.outer_cells e)
  cases ht : u.upstream with
  | none => rw [State.deselect_idle ht]; exact stands
  | some t =>
    refine State.deselect_keeps ht (fun _ => stands) fun _ => ?_
    exact State.endTxn_keeps (P := s.standsAsIn) (fun _ _ _ _ hx => hx) (fun _ hx => hx)
      (fun x r hx => outer hx (x.outer_raise r)) (fun _ _ hx => hx) (fun _ a hx => State.standsAsIn_forget a hx)
      (fun forwarded _ hx => State.standsAsIn_flashTakes h ht forwarded hx) (fun _ x hx => outer hx (x.outer_takeProgram _ _))
      (outer (x := { u with upstream := none }) stands (State.outer_releasePanel _))

theorem State.standsAsIn_laneReset {s u : State} (taken : Bool) (h : s.guardsFrom u) : s.standsAsIn (u.laneReset taken) := by
  have ⟨_, _, _, stands⟩ := h
  have dropped : s.standsAsIn (u.dropTxn taken) :=
    State.dropTxn_keeps taken (fun t ht forwarded hx => State.standsAsIn_flashTakes h ht forwarded hx)
      (fun _ a hx => State.standsAsIn_forget a hx) stands
  refine State.standsAsIn_congr dropped ((congrArg Flash.cells (State.releasePanel_flash _)).trans ?_)
  dsimp only
  split <;> rfl

/-- Every command but the sequencer's writes and a change of power leaves the guarded bytes. -/
theorem State.guardsFrom_kept (s : State) :
    Kept (fun c => writesDownstream c = false ∧ powers c = false) s.guardsFrom :=
  Kept.ofOuter
    (fun {u v} ⟨lanes, mode, layout, stands⟩ e =>
      ⟨State.lanesSound_congr lanes (State.outer_mode e) (State.outer_layout e) (State.outer_upstream e),
        (State.outer_mode e).trans mode, (State.outer_layout e).trans layout, State.standsAsIn_congr stands (State.outer_cells e)⟩)
    (fun _ hA _ => nomatch hA.2) (fun _ hA _ => nomatch hA.2) (fun _ h => h)
    (fun {u} taken _ _ h => by
      obtain ⟨mode, layout, idle⟩ := u.laneReset_outer taken
      have ⟨⟨valid, _⟩, mode', layout', _⟩ := h
      exact ⟨State.lanesSound_idle (by rw [layout]; exact valid) idle, mode.trans mode', layout.trans layout',
        State.standsAsIn_laneReset taken h⟩)
    (fun _ h => h) (fun h => h) (fun _ hA _ _ => hA.elim (fun h => nomatch h.1) (fun h => nomatch h.1))
    (fun {u} c a ha _ h => by
      obtain ⟨lanes, mode, layout, stands⟩ := h
      refine ⟨State.lanesSound_select c ha lanes, ?_⟩
      obtain ⟨t, -, ⟨-, e⟩ | ⟨-, _, _, e⟩⟩ := u.select_cases c a <;> rw [e] <;> exact ⟨mode, layout, stands⟩)
    (fun {u v} hp h => by
      obtain ⟨lanes, rest⟩ := h
      refine ⟨State.lanesSound_passes hp lanes, ?_⟩
      obtain rfl | ⟨_, _, _, _, _, _, _, _, _, rfl⟩ := hp <;> exact rest)
    (fun {u} h => by
      obtain ⟨mode, layout, -⟩ := u.deselect_outer
      exact ⟨State.lanesSound_deselect h.1, mode.trans h.2.1, layout.trans h.2.2.1, State.standsAsIn_deselect h⟩)

/-- A load reads the flash and leaves its bytes (R17). -/
theorem State.powerOn_cells (s : State) (i : PowerOnInput) : (s.powerOn i).flash.cells = s.flash.cells := by
  have outer : ∀ {x u : State}, x.flash.cells = s.flash.cells → u.outer = x.outer → u.flash.cells = s.flash.cells :=
    fun hx e => (State.outer_cells e).trans hx
  exact State.powerOn_keeps (L := fun x => x.flash.cells = s.flash.cells) (P := fun x => x.flash.cells = s.flash.cells) rfl
    (fun _ _ _ _ => rfl) (fun x hx => outer (x := { x with pfw := true }) hx (State.outer_raise _ _))
    (fun x r hx => outer hx (x.outer_raise r)) (fun x l m hx => outer hx (x.outer_loadGrid l m))
    (fun x k b hx => outer hx (x.outer_loadKey k b)) (fun x l m hx => outer hx (x.outer_loadRegion l m)) (fun _ _ hx => hx)
    (fun _ hx => hx) (fun x hx => outer (x := x.queueJob (plainJob .scan 0)) hx (State.outer_startDue _))

/-- Settles O15. -/
theorem guardedAreasStand : Obligations.GuardedAreasStand := by
  intro c s t wf lanes h
  constructor
  · obtain ⟨u, hu, rfl⟩ := State.lanesSound_kept.exec trivial h lanes
    exact hu
  · intro own a ha guarded
    by_cases power : powers c = true
    · cases c with
      | powerOn i =>
        obtain rfl : (s.powerOn i).settle = t := Host.Outcome.next.inj h
        exact congrArg (Memory.get · a) (s.powerOn_cells i)
      | powerLoss => cases own
      | _ => cases power
    · obtain ⟨u, ⟨-, -, -, -, same⟩, rfl⟩ :=
        s.guardsFrom_kept.exec ⟨own, Bool.eq_false_of_not_eq_true power⟩ h ⟨lanes, rfl, rfl, wf, fun _ _ _ => rfl⟩
      exact same a ha guarded

end Sys2Proof.Machine
end

section
/-! NORMAL and BYPASS without sessions, frames, grids and records, and no job that waits while none is in progress (R19, R67, R88,
R122, R133): the statement O12. -/

namespace Sys2Proof.Machine

/-! ## The invariant before the lines are judged -/

/-- Nothing of COMMISSIONING mode is about: no session and no timer, no frame, no grid, no record, and SCAN alone. -/
def State.quiet (s : State) : Prop :=
  s.session.state = .dormant ∧ s.session.timer = .stopped ∧ s.frame0.state = .free ∧ s.frame1.state = .free ∧
    s.engine.state = .idle ∧ s.grid.geometry = none ∧ s.grid.lock = none ∧ s.carriesRecord = false ∧
    (∀ j ∈ s.seq.waiting, j.kind = .scan) ∧ ∀ a ∈ s.seq.active, a.job.kind = .scan

/-- The mode fits the layout, and what is about fits the mode. -/
def State.modeFits (s : State) : Prop :=
  (s.mode ≠ .commissioning → s.quiet) ∧ (s.mode = .bypass → s.seq.active = none ∧ s.seq.waiting = []) ∧
    (s.mode = .bypass ↔ s.layout = none)

/-- No job waits while none is in progress (R122). -/
def State.jobsStarted (s : State) : Prop := s.seq.active = none → s.seq.waiting = []

/-- In COMMISSIONING mode what leaves the outer part leaves the fit. -/
theorem State.modeFits_ofOuter {s u : State} (h : s.modeFits) (mode : s.mode = .commissioning) (e : u.outer = s.outer) :
    u.modeFits := by
  obtain ⟨-, -, layout⟩ := h
  have mode' : u.mode = .commissioning := (State.outer_mode e).trans mode
  rw [mode, ← State.outer_layout e] at layout
  refine ⟨fun no => absurd mode' no, fun bypass => absurd (mode'.symm.trans bypass) nofun, ?_⟩
  rw [mode']
  exact layout

/-- Outside COMMISSIONING mode the fit is of what is about there. -/
theorem State.modeFits_ofQuiet {s u : State} (h : s.modeFits) (mode : u.mode = s.mode) (layout : u.layout = s.layout)
    (commissioning : s.mode = .commissioning → u.modeFits)
    (quiet : s.mode ≠ .commissioning → s.quiet → u.quiet ∧ (s.mode = .bypass → u.seq.active = none ∧ u.seq.waiting = [])) :
    u.modeFits := by
  obtain ⟨still, -, known⟩ := h
  by_cases hm : s.mode = .commissioning
  · exact commissioning hm
  · obtain ⟨quiet', idle⟩ := quiet hm (still hm)
    refine ⟨fun _ => quiet', fun bypass => idle (mode ▸ bypass), ?_⟩
    rw [mode, layout]
    exact known

/-! ### A quiet engine -/

theorem State.takeFrame_quiet {s : State} (h : s.quiet) : s.takeFrame = s := by
  obtain ⟨-, -, free0, free1, -⟩ := h
  obtain ⟨i, -, hi, -⟩ | ⟨e, -⟩ := s.takeFrame_cases
  · have queued := State.frameIn_some hi
    cases i
    · exact absurd (free0.symm.trans queued) nofun
    · exact absurd (free1.symm.trans queued) nofun
  · exact e

theorem State.publishWaiting_idle {s : State} (h : s.engine.state = .idle) : s.publishWaiting = s :=
  State.publishWaiting_quiet (by rw [h]; nofun)

theorem State.endComputing_idle {s : State} (h : s.engine.state = .idle) : s.endComputing = s := by
  obtain e | ⟨i, computing, -⟩ := s.endComputing_cases
  · exact e
  · exact absurd (h.symm.trans computing) nofun

theorem State.modeFits_releasePanel {s : State} (h : s.modeFits) : s.releasePanel.modeFits := by
  refine State.modeFits_ofQuiet h (by simp) (by simp) (fun mode => State.modeFits_ofOuter h mode s.outer_releasePanel)
    fun mode quiet => ?_
  have ⟨_, _, _, _, idle, _⟩ := quiet
  obtain ⟨-, bypass, -⟩ := h
  unfold State.releasePanel
  split
  · rw [State.publishWaiting_idle (s := { s with grid := { s.grid with hold := false } }) idle]
    exact ⟨quiet, bypass⟩
  · exact ⟨quiet, bypass⟩

/-! ### Jobs -/

theorem State.modeFits_raise {s : State} (r : Report) (h : s.modeFits) : (s.raise r).modeFits := by
  rw [State.raise_eq]
  exact h

/-- The job in progress replaced by the same job further on. -/
theorem State.modeFits_withActive {s : State} {a b : Active} (active : s.seq.active = some a) (job : b.job = a.job)
    (h : s.modeFits) : (s.withActive b).modeFits := by
  refine State.modeFits_ofQuiet h rfl rfl (fun mode => State.modeFits_ofOuter h mode rfl) fun _ quiet => ?_
  obtain ⟨-, bypass, -⟩ := h
  obtain ⟨state, timer, free0, free1, engine, geometry, lock, record, waiting, inProgress⟩ := quiet
  refine ⟨⟨state, timer, free0, free1, engine, geometry, lock, record, waiting, fun c hc => ?_⟩, fun mode => ?_⟩
  · obtain rfl : b = c := Option.some.inj hc
    rw [job]
    exact inProgress a active
  · exact absurd (active.symm.trans (bypass mode).1) nofun

/-- The end of a SCAN is its outcome entry alone. -/
theorem State.endJob_scan {s : State} {a : Active} (o : JobOutcome) (g : Nat) (h : a.job.kind = .scan) :
    s.endJob a o g = { s with
      intake := { s.intake with outcomes := recordOutcome s.intake.outcomes (a.job.kind.code - 1) a.job.tag o g }
      seq := { s.seq with active := none } } := by
  unfold State.endJob State.endActions
  rw [h]

theorem State.modeFits_endJob {s : State} {a b : Active} (o : JobOutcome) (g : Nat) (active : s.seq.active = some a)
    (same : a.same b) (h : s.modeFits) : (s.endJob b o g).modeFits := by
  obtain ⟨-, -, -, -, -, mode, layout⟩ := s.endJob_fields b o g
  refine State.modeFits_ofQuiet h mode layout (fun mode => State.modeFits_ofOuter h mode (s.outer_endJob b o g)) fun _ quiet => ?_
  obtain ⟨-, bypass, -⟩ := h
  obtain ⟨state, timer, free0, free1, engine, geometry, lock, record, waiting, inProgress⟩ := quiet
  obtain ⟨job, -⟩ := same
  rw [State.endJob_scan o g ((congrArg Job.kind job).trans (inProgress a active))]
  refine ⟨⟨state, timer, free0, free1, engine, geometry, lock, record, waiting, fun _ ha => nomatch ha⟩, fun mode => ⟨rfl, (bypass mode).2⟩⟩

theorem State.modeFits_runs {s u : State} (h : s.Runs u) (hs : s.modeFits) : u.modeFits := by
  induction h with
  | done => exact hs
  | goesOn active same _ ih => exact ih (State.modeFits_withActive active same.1 hs)
  | ends o g active same _ ih => exact ih (State.modeFits_endJob o g active same hs)
  | raises r _ ih => exact ih (State.modeFits_raise r hs)
  | judgesKey slot blocks _ ih => exact ih (by rw [State.judgeKey_eq]; exact hs)
  | scrubs _ mode _ _ ih => exact ih (State.modeFits_ofOuter hs mode rfl)
  | appends _ _ _ _ ih | tallies _ _ ih | fills _ _ ih | regions _ _ _ ih | flash _ _ ih => exact ih hs

theorem State.modeFits_begun {s : State} {j : Job} {t : List Job} {d : JobData} (waits : s.seq.waiting = j :: t)
    (h : s.modeFits) : (State.begun { s with seq := { s.seq with waiting := t } } j d).modeFits := by
  have outer : (State.begun { s with seq := { s.seq with waiting := t } } j d).outer = s.outer := State.outer_begun _ j d
  refine State.modeFits_ofQuiet h (State.outer_mode outer) (State.outer_layout outer)
    (fun mode => State.modeFits_ofOuter h mode outer) fun _ quiet => ?_
  obtain ⟨-, bypass, -⟩ := h
  obtain ⟨state, timer, free0, free1, engine, geometry, lock, record, waiting, -⟩ := quiet
  rw [waits] at waiting bypass
  obtain ⟨scan, waiting'⟩ := List.forall_mem_cons.1 waiting
  unfold State.begun
  rw [scan, if_neg (by decide)]
  refine ⟨⟨state, timer, free0, free1, engine, geometry, lock, record, waiting', fun a ha => ?_⟩,
    fun mode => absurd (bypass mode).2 nofun⟩
  obtain rfl : freshJob j d [] = a := Option.some.inj ha
  exact scan

theorem State.modeFits_startDue {s : State} (h : s.modeFits) : s.startDue.modeFits :=
  State.startDue_keeps (fun _ _ _ _ _ waits _ hs => State.modeFits_begun waits hs) (fun _ _ run hs => State.modeFits_runs run hs) h

/-- Once the waiting jobs have started none waits while none is in progress. -/
theorem State.jobsStarted_startDue {s : State} (h : s.modeFits) : s.startDue.jobsStarted := by
  obtain ⟨-, bypass, known⟩ := h
  exact s.startDue_settled fun none => (bypass (known.2 none)).2

/-- Where the jobs have started no job is due. -/
theorem State.startDue_started {s : State} (h : s.jobsStarted) : s.startDue = s := by
  cases ha : s.seq.active with
  | none => exact State.startDue_empty (h ha)
  | some a => exact State.startDue_busy ha

/-! ### Records -/

theorem State.Judged.seq {s u : State} {r : Result} (h : s.Judged u r) (answered : r ≠ .queued) : u.seq = s.seq := by
  cases h with
  | reset =>
    unfold judgeResetSession
    obtain e | ⟨i, -, -, -, e⟩ := State.discardWaiting_cases _ <;> rw [e]
    rw [State.discardFrame_seq]
  | frameOpen | zones | frameAbandon => rw [State.setFrame_seq]
  | frameClose => rw [State.setFrame_seq, State.takeFrame_seq]
  | rollback => unfold State.popHistory; split <;> rfl
  | job | keyStore | keyErase | closeOut => exact absurd rfl answered
  | _ => rfl

/-- A record taken in COMMISSIONING mode. -/
def State.takesRecords (s : State) : Prop := s.modeFits ∧ s.jobsStarted ∧ s.mode = .commissioning

theorem State.takesRecords_takeRecord {s : State} (k : Kind) (tag : Byte) (body : List Byte) (h : s.takesRecords) :
    (s.takeRecord k tag body).takesRecords := by
  obtain ⟨fits, started, mode⟩ := h
  have judged := judgeRecord_judged s tag body k
  have outer : (State.noteRecord (judgeRecord k tag body s).1 tag (judgeRecord k tag body s).2).outer = s.outer := judged.outer
  refine ⟨State.modeFits_ofOuter fits mode (s.outer_takeRecord k tag body), ?_,
    (State.outer_mode (s.outer_takeRecord k tag body)).trans mode⟩
  unfold State.takeRecord State.concludeRecord
  split
  · exact State.jobsStarted_startDue (State.modeFits_ofOuter fits mode outer)
  · have seq := judged.seq ‹_›
    unfold State.jobsStarted
    rw [State.noteRecord_seq, seq]
    exact started

theorem State.takesRecords_takeFramed {s : State} (f : Framed) (h : s.takesRecords) : (s.takeFramed f).takesRecords :=
  State.takeFramed_keeps (fun _ _ _ hx => hx) (fun _ k tag body hx => State.takesRecords_takeRecord k tag body hx) f h

theorem State.takesRecords_takeProgram {s : State} (offset : Nat) (data : List Byte) (h : s.takesRecords) :
    (s.takeProgram offset data).takesRecords :=
  State.takeProgram_keeps (fun _ _ _ hx => hx) (fun _ hx => hx)
    (fun _ k tag body hx => State.takesRecords_takeRecord k tag body hx) offset data h

theorem State.commissioning_of_recordsReach {s : State} (h : s.recordsReach = true) : s.mode = .commissioning := by
  simp only [State.recordsReach, Bool.and_eq_true, decide_eq_true_eq] at h
  exact h.1.1.1

/-! ### Transactions -/

/-- A record is taken only where APERTURE is a window of its own, in COMMISSIONING mode (R5, R7). -/
theorem State.treatmentOf_record {s : State} {c : LaneCommand} {a : Nat} {occ : Bool} (h : s.treatmentOf c a occ = .record) :
    s.mode = .commissioning := by
  have window : s.windowOf a = .aperture := by
    cases c with
    | pageProgram =>
      simp only [State.treatmentOf] at h
      split at h
      · assumption
      · split at h <;> cases h
    | sectorErase => simp only [State.treatmentOf] at h; split at h <;> cases h
    | blockErase =>
      simp only [State.treatmentOf] at h
      split at h
      · cases h
      · split at h <;> cases h
    | chipErase | writeEnable | writeDisable | readStatus | readId | unrecognised =>
      simp only [State.treatmentOf] at h; split at h <;> cases h
    | incomplete | read | fastRead => cases h
  unfold State.windowOf at window
  split at window
  · cases window
  · cases window
  · split at window <;> contradiction
  · assumption

theorem State.quiet_upstream {s u : State} (h : s.quiet) (e : u = { s with upstream := u.upstream })
    (record : u.carriesRecord = false) : u.quiet := by
  obtain ⟨state, timer, free0, free1, engine, geometry, lock, -, waiting, inProgress⟩ := h
  rw [e] at record ⊢
  exact ⟨state, timer, free0, free1, engine, geometry, lock, record, waiting, inProgress⟩

theorem State.jobsStarted_cutRead {s : State} (h : s.jobsStarted) : s.cutRead.jobsStarted := by
  intro idle
  exact h (Option.map_eq_none_iff.1 idle)

theorem State.modeFits_cutRead {s : State} (h : s.modeFits) : s.cutRead.modeFits := by
  unfold State.cutRead
  cases ha : s.seq.active with
  | none =>
    have same : ({ s with seq := { s.seq with active := Option.map Active.cut none } } : State) = s := by
      rw [Option.map_none, ← ha]
    rw [same]
    exact h
  | some a => exact State.modeFits_withActive ha a.cut_keeps.1 h

theorem State.modeFits_upstream {s : State} {t : Option Txn} (h : s.modeFits)
    (record : s.mode ≠ .commissioning → ∀ x, t = some x → x.treatment ≠ .record) : State.modeFits { s with upstream := t } := by
  obtain ⟨still, bypass, known⟩ := h
  refine ⟨fun mode => State.quiet_upstream (still mode) rfl ?_, bypass, known⟩
  unfold State.carriesRecord
  cases t with
  | none => rfl
  | some x => simpa using record mode x rfl

theorem State.modeFits_select {s : State} (c : LaneCommand) (a : Nat) (h : s.modeFits) : (s.select c a).modeFits := by
  obtain ⟨t, ht, cases⟩ := s.select_cases c a
  have record : s.mode ≠ .commissioning → ∀ x, some t = some x → x.treatment ≠ .record := by
    intro mode x hx e
    obtain rfl := Option.some.inj hx
    rw [ht] at e
    exact mode (State.treatmentOf_record e)
  obtain ⟨-, e⟩ | ⟨-, _, _, e⟩ := cases <;> rw [e]
  · exact State.modeFits_upstream h record
  · exact State.modeFits_upstream (s := s.cutRead) (State.modeFits_cutRead h) record

/-- A transaction that ends keeps the fit, and only in COMMISSIONING mode is it a record's. -/
theorem State.modeFits_endTxn {s : State} {t : Txn} (fits : s.modeFits) (started : s.jobsStarted)
    (commissioning : t.treatment = .record → s.mode = .commissioning) : (s.endTxn t).modeFits ∧ (s.endTxn t).jobsStarted := by
  have ended : (s.endTxn t).modeFits ∧ (s.endTxn t).jobsStarted ∧
      (t.treatment = .record → (s.endTxn t).mode = .commissioning) :=
    State.endTxn_keeps (P := fun x => x.modeFits ∧ x.jobsStarted ∧ (t.treatment = .record → x.mode = .commissioning))
      (fun _ _ _ _ hx => hx) (fun _ hx => hx) (fun x r hx => by rw [State.raise_eq]; exact hx) (fun _ _ hx => hx)
      (fun x a hx => by rw [State.forgetProfile_eq]; exact hx) (fun _ x hx => by rw [State.flashTakes_eq]; exact hx)
      (fun record x ⟨f, j, m⟩ =>
        have ⟨f', j', m'⟩ := State.takesRecords_takeProgram (t.addr % 256) t.data ⟨f, j, m record⟩
        ⟨f', j', fun _ => m'⟩)
      ⟨fits, started, commissioning⟩
  exact ⟨ended.1, ended.2.1⟩

theorem State.modeFits_deselect {s : State} (h : s.modeFits ∧ s.jobsStarted) : s.deselect.modeFits ∧ s.deselect.jobsStarted := by
  obtain ⟨fits, started⟩ := h
  cases ht : s.upstream with
  | none => rw [State.deselect_idle ht]; exact ⟨fits, started⟩
  | some t =>
    have bare : State.modeFits { s with upstream := none } := State.modeFits_upstream fits fun _ _ h => nomatch h
    refine State.deselect_keeps (P := fun x => x.modeFits ∧ x.jobsStarted) ht (fun _ => ⟨bare, started⟩) fun _ => ?_
    refine State.modeFits_endTxn (State.modeFits_releasePanel bare) ?_ fun record => ?_
    · unfold State.jobsStarted
      rw [State.releasePanel_seq]
      exact started
    · rw [State.releasePanel_mode]
      by_contra mode
      obtain ⟨-, -, -, -, -, -, -, none, -⟩ := fits.1 mode
      simp [State.carriesRecord, ht, record] at none

/-! ### Power -/

theorem State.quiet_reset {s : State} (lineMode : Bool) : (s.powerUp lineMode).quiet :=
  ⟨rfl, rfl, rfl, rfl, rfl, rfl, rfl, rfl, List.forall_mem_nil _, fun _ ha => nomatch ha⟩

theorem State.modeFits_raised {s : State} {r : Report} (h : s.modeFits ∧ s.seq.active = none ∧ s.seq.waiting = []) :
    (s.raise r).modeFits ∧ (s.raise r).seq.active = none ∧ (s.raise r).seq.waiting = [] := by
  rw [State.raise_eq]
  exact h

theorem State.modeFits_releaseHold {s : State} (b : Bool) (h : s.modeFits) : (s.releaseHold b).modeFits := by
  refine State.modeFits_upstream (s := { s with sysHold := false }) h fun _ x hx => ?_
  cases b with
  | false => cases hx
  | true =>
    cases hx
    nofun

theorem State.modeFits_powerOn {s : State} (i : PowerOnInput) : (s.powerOn i).modeFits ∧ (s.powerOn i).jobsStarted := by
  cases valid : descriptorLayout (Memory.read (Memory.setAll s.flash.cells i.misread) descriptorBase 64) with
  | none =>
    obtain ⟨fits, -, waiting⟩ := State.powerOn_keeps_invalid
      (L := fun x => x.modeFits ∧ x.seq.active = none ∧ x.seq.waiting = []) (fun x hx => State.modeFits_raised (s := { x with pfw := true }) hx)
      (fun _ _ hx => State.modeFits_raised hx) (fun _ b hx => ⟨State.modeFits_releaseHold b hx.1, hx.2⟩) valid
      ⟨⟨fun _ => State.quiet_reset _, fun _ => ⟨rfl, rfl⟩, fun _ => rfl, fun _ => rfl⟩, rfl, rfl⟩
    exact ⟨fits, fun _ => waiting⟩
  | some l =>
    have decided : ∀ b o, decideMode b o ≠ .bypass := by
      intro b o
      unfold decideMode
      split
      · nofun
      · split <;> nofun
    refine State.powerOn_keeps_valid
      (L := fun x => (x.modeFits ∧ x.seq.active = none ∧ x.seq.waiting = []) ∧ x.mode ≠ .bypass)
      (P := fun x => x.modeFits ∧ x.jobsStarted)
      (fun x hx => ⟨State.modeFits_raised (s := { x with pfw := true }) hx.1, (State.raise_mode { x with pfw := true } _).symm ▸ hx.2⟩)
      (fun x r hx => ⟨State.modeFits_raised hx.1, (x.raise_mode r).symm ▸ hx.2⟩) (fun x l m hx => ?_) (fun x k b hx => ?_)
      (fun x l m hx => ?_) (fun x b ⟨⟨f, j⟩, m⟩ => ⟨⟨State.modeFits_releaseHold b f, j⟩, m⟩) valid ?_ (fun x hx => ?_)
    · unfold State.loadGrid
      split
      · rename_i mode
        rw [State.resume_eq]
        obtain ⟨⟨f, j⟩, m⟩ := hx
        exact ⟨⟨State.modeFits_ofOuter f mode rfl, j⟩, m⟩
      · exact hx
    · rw [State.loadKey_eq]; exact hx
    · rw [State.loadRegion_eq]; exact hx
    · exact ⟨⟨⟨fun _ => State.quiet_reset (s := s) i.lineMode, fun _ => ⟨rfl, rfl⟩, fun e => absurd e (decided _ _), nofun⟩, rfl, rfl⟩, decided _ _⟩
    · obtain ⟨⟨fits, active, waiting⟩, mode⟩ := hx
      have queued : (x.queueJob (plainJob .scan 0)).modeFits := by
        refine State.modeFits_ofQuiet fits rfl rfl (fun commissioning => State.modeFits_ofOuter fits commissioning rfl)
          fun _ ⟨state, timer, free0, free1, engine, geometry, lock, record, waiting, inProgress⟩ =>
            ⟨⟨state, timer, free0, free1, engine, geometry, lock, record, fun j hj => ?_, inProgress⟩, fun e => absurd e mode⟩
        obtain hj | hj := List.mem_append.1 hj
        · exact waiting j hj
        · obtain rfl := List.mem_singleton.1 hj
          rfl
      exact ⟨State.modeFits_startDue queued, State.jobsStarted_startDue queued⟩

/-! ## Every command -/

theorem State.modeFits_laneReset {s : State} (taken : Bool) (h : s.modeFits ∧ s.jobsStarted) :
    (s.laneReset taken).modeFits ∧ (s.laneReset taken).jobsStarted := by
  obtain ⟨fits, started⟩ : (s.dropTxn taken).modeFits ∧ (s.dropTxn taken).jobsStarted :=
    State.dropTxn_keeps (P := fun x => x.modeFits ∧ x.jobsStarted) taken (fun t _ _ hx => by rw [State.flashTakes_eq]; exact hx)
      (fun _ _ hx => by rw [State.forgetProfile_eq]; exact hx) h
  have bare := State.modeFits_upstream (t := none) (State.modeFits_cutRead fits) fun _ _ h => nomatch h
  have kept : ∀ f : Frame, f.state = .free → f.laneReset.state = .free := fun f hf => (f.laneReset_state).elim id (·.trans hf)
  refine ⟨State.modeFits_releasePanel ?_, ?_⟩
  · obtain ⟨still, bypass, known⟩ := bare
    refine ⟨fun mode => ?_, bypass, known⟩
    obtain ⟨state, timer, free0, free1, rest⟩ := still mode
    exact ⟨state, timer, kept _ free0, kept _ free1, rest⟩
  · unfold State.jobsStarted State.laneReset
    dsimp only
    rw [State.releasePanel_seq]
    exact State.jobsStarted_cutRead started

theorem State.modeFits_beginReady {s : State} {a : Active} (ha : s.seq.active = some a) (h : s.modeFits ∧ s.jobsStarted) :
    (s.beginReady a).modeFits ∧ (s.beginReady a).jobsStarted := by
  obtain e | ⟨p, f, -, e⟩ := s.beginReady_cases a <;> rw [e]
  · exact h
  · refine ⟨State.modeFits_withActive (s := { s with flash := f }) ha ?_ h.1, nofun⟩
    rw [State.withRecord_eq]

theorem State.modeFits_lapse {s : State} {n : Nat} (running : s.session.timer = .running n) (h : s.modeFits ∧ s.jobsStarted) :
    s.lapse.modeFits ∧ s.lapse.jobsStarted := by
  obtain ⟨fits, started⟩ := h
  have mode : s.mode = .commissioning := by
    by_contra mode
    obtain ⟨-, stopped, -⟩ := fits.1 mode
    exact absurd (stopped.symm.trans running) nofun
  refine ⟨State.modeFits_ofOuter fits mode s.outer_lapse, ?_⟩
  have raised : ∀ r, State.jobsStarted (State.raise { s with session := { s.session with state := .lapsed } } r) := by
    intro r
    rw [State.raise_eq]
    exact started
  unfold State.lapse
  dsimp only
  split
  · split
    · exact raised _
    · refine State.jobsStarted_startDue (State.modeFits_ofOuter fits mode ?_)
      exact (State.outer_raise _ _ : _ = State.outer { s with session := _ })
  · exact raised _

/-- Every command keeps the modes apart, and starts the jobs that are due. -/
theorem State.modeFits_kept : Kept (fun _ => True) (fun s => s.modeFits ∧ s.jobsStarted) where
  powerOn i _ _ := State.modeFits_powerOn i
  powerLoss {s} _ _ _ := ⟨⟨fun _ => State.quiet_reset (s := s) false, fun _ => ⟨rfl, rfl⟩, fun _ => rfl, fun _ => rfl⟩, fun _ => rfl⟩
  resetLine _ h := h
  laneReset taken _ _ h := State.modeFits_laneReset taken h
  pfwRise h := by rw [State.pfwRise, State.raise_eq]; exact h
  pfwFall {s} _ h := by
    obtain e | ⟨u, rfl, e | ⟨a, ha, e⟩⟩ := s.pfwFall_cases <;> rw [e]
    · exact h
    · exact h
    · exact State.modeFits_beginReady (s := { s with pfw := false, conds := _ }) ha h
  tick {s} h := by
    have same : s.session.tick.state = s.session.state ∧ s.session.tick.timer = s.session.timer := by
      unfold Session.tick
      split <;> exact ⟨rfl, rfl⟩
    obtain ⟨⟨still, rest⟩, started⟩ := h
    refine ⟨⟨fun mode => ?_, rest⟩, started⟩
    obtain ⟨state, timer, quiet⟩ := still mode
    exact ⟨same.1.trans state, same.2.trans timer, quiet⟩
  flashTimer h := h
  lapse _ running h := State.modeFits_lapse running h
  select {s} c a _ _ h := by
    obtain ⟨fits, started⟩ := h
    refine ⟨State.modeFits_select c a fits, ?_⟩
    obtain ⟨t, -, ⟨-, e⟩ | ⟨-, _, _, e⟩⟩ := s.select_cases c a <;> rw [e]
    · exact started
    · exact State.jobsStarted_cutRead started
  passes {s u} hp h := by
    obtain rfl | ⟨t, t', _, _, _, _, up, ⟨-, -, -, -, treatment, -⟩, -, rfl⟩ := hp
    · exact h
    · obtain ⟨⟨still, rest⟩, started⟩ := h
      refine ⟨⟨fun mode => ?_, rest⟩, started⟩
      obtain ⟨state, timer, free0, free1, engine, geometry, lock, record, jobs⟩ := still mode
      refine ⟨state, timer, free0, free1, engine, geometry, lock, ?_, jobs⟩
      have was : decide (t.treatment = .record) = false := by simpa only [State.carriesRecord, up] using record
      exact (congrArg (fun x => decide (x = Treatment.record)) treatment).trans was
  deselect h := State.modeFits_deselect h
  takeProgram o d reach h := by
    obtain ⟨f, j, -⟩ := State.takesRecords_takeProgram o d ⟨h.1, h.2, State.commissioning_of_recordsReach reach⟩
    exact ⟨f, j⟩
  takeFramed fr reach h := by
    obtain ⟨f, j, -⟩ := State.takesRecords_takeFramed fr ⟨h.1, h.2, State.commissioning_of_recordsReach reach⟩
    exact ⟨f, j⟩
  takeRecord k tag body reach h := by
    obtain ⟨f, j, -⟩ := State.takesRecords_takeRecord k tag body ⟨h.1, h.2, State.commissioning_of_recordsReach reach⟩
    exact ⟨f, j⟩
  takeFrame {s} h := by
    refine ⟨State.modeFits_ofQuiet h.1 (by simp) (by simp) (fun mode => State.modeFits_ofOuter h.1 mode s.outer_takeFrame)
      fun _ quiet => ?_, by unfold State.jobsStarted; rw [State.takeFrame_seq]; exact h.2⟩
    rw [State.takeFrame_quiet quiet]
    exact ⟨quiet, h.1.2.1⟩
  endComputing {s} h := by
    refine ⟨State.modeFits_ofQuiet h.1 (State.outer_mode s.outer_endComputing) (State.outer_layout s.outer_endComputing)
      (fun mode => State.modeFits_ofOuter h.1 mode s.outer_endComputing) fun _ quiet => ?_, ?_⟩
    · have ⟨_, _, _, _, idle, _⟩ := quiet
      rw [State.endComputing_idle idle]
      exact ⟨quiet, h.1.2.1⟩
    · have seq : s.endComputing.seq = s.seq := by
        obtain e | ⟨i, -, -, ⟨-, e⟩ | ⟨-, e⟩⟩ := s.endComputing_cases <;> rw [e] <;> simp
      unfold State.jobsStarted
      rw [seq]
      exact h.2
  publishWaiting {s} h := by
    refine ⟨State.modeFits_ofQuiet h.1 (by simp) (by simp) (fun mode => State.modeFits_ofOuter h.1 mode s.outer_publishWaiting)
      fun _ quiet => ?_, by unfold State.jobsStarted; rw [State.publishWaiting_seq]; exact h.2⟩
    have ⟨_, _, _, _, idle, _⟩ := quiet
    rw [State.publishWaiting_idle idle]
    exact ⟨quiet, h.1.2.1⟩
  startDue h := by rw [State.startDue_started h.2]; exact h
  beginStep {s} _ h := by
    obtain e | ⟨a, ha, e | e⟩ := s.beginStep_cases <;> rw [e]
    · exact h
    · exact ⟨State.modeFits_withActive ha rfl h.1, nofun⟩
    · exact State.modeFits_beginReady ha h
  readDone {s} l a busy misread _ ha h := by
    obtain ⟨fits, started⟩ := h
    unfold State.readDone
    split
    · split
      · exact ⟨State.modeFits_withActive ha rfl fits, nofun⟩
      · exact ⟨State.modeFits_withActive (s := { s with flash := _ }) ha rfl fits, nofun⟩
    · rename_i addr len use rest _ _
      have ran := State.modeFits_runs (State.runs_useBytes l use (s.flashRead misread addr len) rest ⟨a, ha, a.same_refl⟩) fits
      exact ⟨State.modeFits_startDue ran, State.jobsStarted_startDue ran⟩
    · exact ⟨fits, started⟩
  endOccupied {s} l _ h := by
    obtain e | ⟨u, run, e⟩ := s.endOccupied_runs l <;> rw [e]
    · exact h
    · have ran := State.modeFits_runs run h.1
      exact ⟨State.modeFits_startDue ran, State.jobsStarted_startDue ran⟩

/-- The modes are apart once the lines are judged: the idle timer runs in OPEN alone (R21). -/
theorem State.modeSound_settle {s : State} (fits : s.modeFits) (started : s.jobsStarted) : s.settle.modeSound := by
  obtain ⟨still, bypass, known⟩ := fits
  refine ⟨fun mode => ?_, bypass, known, started, fun state => ?_⟩
  · obtain ⟨state, -, free0, free1, engine, geometry, lock, record, jobs⟩ := still mode
    exact ⟨state, free0, free1, engine, geometry, lock, record, jobs⟩
  · exact if_pos state

theorem State.modeSound_fits {s : State} (h : s.modeSound) : s.modeFits ∧ s.jobsStarted := by
  obtain ⟨still, bypass, known, started, timer⟩ := h
  refine ⟨⟨fun mode => ?_, bypass, known⟩, started⟩
  obtain ⟨state, free0, free1, engine, geometry, lock, record, jobs⟩ := still mode
  exact ⟨state, timer (by rw [state]; nofun), free0, free1, engine, geometry, lock, record, jobs⟩

/-- Settles O12. -/
theorem stepsKeepModesApart : Obligations.StepsKeepModesApart := by
  intro s t hs h
  unfold step at h
  split at h
  · cases h
    exact hs
  · obtain ⟨u, ⟨fits, started⟩, rfl⟩ := State.modeFits_kept.exec trivial h (State.modeSound_fits hs)
    exact State.modeSound_settle fits started

/-- Settles O5: the reset state meets each invariant by what it names. -/
theorem powerOnStateIsSound : Obligations.PowerOnStateIsSound :=
  ⟨Memory.wf_reset, State.lockSound_of_unheld ⟨rfl, rfl⟩, State.condsSound_reset, State.tablesSound_reset,
    State.gridSound_reset, State.engineSound_reset,
    ⟨fun _ => ⟨rfl, rfl, rfl, rfl, rfl, rfl, rfl, List.forall_mem_nil _, fun _ ha => nomatch ha⟩,
      fun _ => ⟨rfl, rfl⟩, ⟨fun _ => rfl, fun _ => rfl⟩,
      fun _ => rfl, fun _ => rfl⟩,
    State.keysSound_ofReset rfl rfl rfl rfl, State.recordSound_idle rfl, State.lanesSound_idle nofun rfl⟩

end Sys2Proof.Machine
end

section
/-! The records of the Intake, the session, the grid and the jobs at their owners (02 to 04, 09): who answers a record and how, and
the statements O37 to O42, O44 and O50. -/

namespace Sys2Proof.Machine

/-! ## Who answers a record (R29 to R33) -/

/-- In OPEN a record with a body long enough is answered by its owner's verdict (R29, R32). -/
theorem exec_command_open {s : State} (k : Kind) (tag : Byte) {body : List Byte} (hopen : s.inOpen = true)
    (hlen : k.bodyLength ≤ body.length) :
    exec (k.command tag body) s = .next ((judgeKind k tag body s).1.answered tag (judgeKind k tag body s).2) := by
  rw [exec_kindCommand, State.recordCommand_open tag hopen hlen]

/-- A record that its session state takes is answered by its owner's verdict. -/
theorem exec_command_judged {s : State} (k : Kind) (tag : Byte) {body : List Byte} (reach : s.recordsReach = true)
    (taken : sessionRefusal s.session.state k = none) (hlen : k.bodyLength ≤ body.length) :
    exec (k.command tag body) s = .next ((judgeKind k tag body s).1.answered tag (judgeKind k tag body s).2) := by
  rw [exec_kindCommand, State.recordCommand_judged tag reach taken hlen]

/-- A record that its session state does not take is answered by the state's refusal (R31). -/
theorem exec_command_refused {s : State} {k : Kind} {r : Result} (tag : Byte) (body : List Byte) (reach : s.recordsReach = true)
    (refused : sessionRefusal s.session.state k = some r) : exec (k.command tag body) s = .next (s.answered tag r) := by
  rw [exec_kindCommand, State.recordCommand_refused tag body reach refused]

/-- A record that its session state takes, with a short body, is refused with RANGE (R32). -/
theorem exec_command_short {s : State} {k : Kind} (tag : Byte) {body : List Byte} (reach : s.recordsReach = true)
    (taken : sessionRefusal s.session.state k = none) (short : body.length < k.bodyLength) :
    exec (k.command tag body) s = .next (s.answered tag .range) := by
  rw [exec_kindCommand]
  simp only [State.recordCommand, reach, State.takeRecord, judgeRecord, taken, short, State.answered, if_true]

/-- A record reaches its owner when one can reach the part and the session is OPEN. -/
theorem State.inOpen_iff (s : State) : s.inOpen = true ↔ s.recordsReach = true ∧ s.session.state = .opened := by
  simp only [State.inOpen, Bool.and_eq_true, decide_eq_true_eq]

/-- Settles O38: each refusing session state names the kinds it takes, and every other one gets its refusal. -/
theorem recordsOutsideOpenAreRefused : Obligations.RecordsOutsideOpenAreRefused := by
  intro k tag body s reach
  refine ⟨fun dormant notOpen notMask notRetire => ?_, fun lapsed notOpen => ?_, fun closed notMask notRetire => ?_⟩
  · exact exec_command_refused tag body reach (by rw [dormant]; exact if_neg (by simp [notOpen, notMask, notRetire]))
  · exact exec_command_refused tag body reach (by rw [lapsed]; exact if_neg notOpen)
  · exact exec_command_refused tag body reach (by rw [closed]; exact if_neg (by simp [notMask, notRetire]))

/-- Settles O39: the session state is asked first and the body's length next, before any owner. -/
theorem shortAndUnreachedRecordsAreJudgedFirst : Obligations.ShortAndUnreachedRecordsAreJudgedFirst := by
  refine ⟨fun k tag body s => ⟨fun hopen short => ?opened, fun reach short taken => ?others, fun unreached => ?unreached⟩, rfl⟩
  case opened =>
    obtain ⟨reach, opened⟩ := s.inOpen_iff.mp hopen
    exact exec_command_short tag reach (by rw [opened]; rfl) short
  case others =>
    refine exec_command_short tag reach ?_ short
    rcases taken with ⟨rfl, dormant | lapsed⟩ | ⟨rfl, dormant | closed⟩
    · rw [dormant]; rfl
    · rw [lapsed]; rfl
    · rw [dormant]; rfl
    · rw [closed]; rfl
  case unreached => rw [exec_kindCommand, State.recordCommand_unreached k tag body unreached]

/-! ## SESSION_OPEN and RESET_SESSION (R20, R27) -/

/-- R20's ranges, with the digits as they stand in the body. -/
theorem SessionOpenBody.legal_iff (b : SessionOpenBody) :
    b.legal = true ↔ 1 ≤ b.station ∧ b.hours ≤ 23 ∧ b.minutes ≤ 59 ∧ b.seconds ≤ 59 ∧ b.tens ≤ 7 ∧ b.ones ≤ 9 ∧
      b.prescale ≤ 1 ∧ b.rate ≤ 3 ∧ b.duration ≤ 3 := by
  simp only [SessionOpenBody.legal, Bool.and_eq_true, decide_eq_true_eq, and_assoc]

/-- A two-byte field is its low byte and 256 times its high one. -/
theorem fieldAt_two {l : List Byte} {off : Nat} (inside : off + 2 ≤ l.length) :
    fieldAt l off 2 = byteAt l off + 256 * byteAt l (off + 1) := by
  have low : off < l.length := by omega
  have high : off + 1 < l.length := by omega
  rw [fieldAt, slice, List.drop_eq_getElem_cons low, List.drop_eq_getElem_cons high]
  simp only [byteAt, List.getD_eq_getElem?_getD, List.getElem?_eq_getElem low, List.getElem?_eq_getElem high, Option.getD_some,
    List.take_succ_cons, List.take_zero, unle]
  omega

/-- Settles O40: R20's checks are asked of the body, and an accepted one sets the fields it carries. -/
theorem sessionOpenSetsTheSession : Obligations.SessionOpenSetsTheSession := by
  intro tag body s reach notClosed hlen
  dsimp only
  have taken : sessionRefusal s.session.state .sessionOpen = none := by
    cases state : s.session.state with
    | closed => exact absurd state notClosed
    | dormant => rfl
    | opened => rfl
    | lapsed => rfl
  have judged : exec (.sessionOpen tag body) s =
      .next ((judgeSessionOpen body s).1.answered tag (judgeSessionOpen body s).2) :=
    exec_command_judged .sessionOpen tag reach taken hlen
  have ranges := (sessionOpenBody body).legal_iff
  refine ⟨fun illegal => ?_, fun legal => ?_⟩
  · rw [judged, judgeSessionOpen, if_neg (fun h => illegal (ranges.mp h))]
  · have day : fieldAt body 1 2 = byteAt body 1 + 256 * byteAt body 2 := fieldAt_two (by omega)
    have seen : (s.session.publishSeen && decide (s.session.state ≠ .dormant)) =
        if s.session.state = .dormant then false else s.session.publishSeen := by
      split_ifs with dormant <;> simp [dormant]
    rw [judged, judgeSessionOpen, if_pos (ranges.mpr legal)]
    simp only [sessionOpenBody, day, seen]

theorem Frame.resetSession_marked {f : Frame} (solving : f.state = .solving) : f.resetSession = { f with discard := true } := by
  rw [Frame.resetSession, solving]

/-- Not IDLE, the engine has a SOLVING frame. -/
theorem State.frameIn_of_busy {s : State} (sound : s.engineSound) (busy : s.engine.state ≠ .idle) :
    ∃ i, s.frameIn .solving = some i := by
  obtain ⟨idle, -⟩ := ((State.engineSound_iff s).mp sound).1
  by_contra absent
  have empty : s.frameIn .solving = none := Option.eq_none_iff_forall_ne_some.mpr fun i h => absent ⟨i, h⟩
  exact busy (idle.mpr (State.frame_ne_of_frameIn empty))

/-- Two states with the same buffers in a state find the same one. -/
theorem State.frameIn_congr {s u : State} {st : FrameState} (same : ∀ i, (u.frame i).state = st ↔ (s.frame i).state = st) :
    u.frameIn st = s.frameIn st := by
  have buffer0 : u.frame0.state = st ↔ s.frame0.state = st := same false
  have buffer1 : u.frame1.state = st ↔ s.frame1.state = st := same true
  simp only [State.frameIn, buffer0, buffer1]

/-- The engine's frame, marked and waiting to publish, is discarded at once (R85). -/
theorem State.discardWaiting_marked {s : State} {i : Bool} (waits : s.engine.state = .publishWait)
    (found : s.frameIn .solving = some i) (marked : (s.frame i).discard = true) : s.discardWaiting = s.discardFrame i := by
  rw [State.discardWaiting, if_pos waits, found]
  exact if_pos marked

/-- Settles O41: the buffers, the stack, the staging buffer, the watches and the counters are cleared; what is left of the
engine's frame has the discard mark, so one that waits to publish is discarded. -/
theorem resetSessionClearsTheWork : Obligations.ResetSessionClearsTheWork := by
  intro tag body s hopen
  dsimp only
  have judged : exec (.resetSession tag body) s =
      .next ((judgeResetSession s).1.answered tag (judgeResetSession s).2) :=
    exec_command_open .resetSession tag hopen (Nat.zero_le _)
  have staging : s.staging.resetSession =
      if s.staging.state = .filling ∨ s.staging.state = .complete then Staging.idle else s.staging := by
    unfold Staging.resetSession
    cases s.staging.state <;> rfl
  have frame : ∀ f : Frame, f.resetSession = (match f.state with
      | .free => f | .filling => Frame.empty | .queued => Frame.empty | .solving => { f with discard := true }) := fun _ => rfl
  rw [judged, judgeResetSession, staging]
  refine ⟨fun notWaiting => ?_, fun sound waiting => ?_⟩
  · rw [State.discardWaiting, if_neg (show ¬_ = _ from notWaiting)]
    rfl
  · obtain ⟨i, found⟩ := State.frameIn_of_busy sound (by rw [waiting]; nofun)
    have solving := State.frameIn_some found
    refine ⟨i, solving, ?_⟩
    have marked := Frame.resetSession_marked solving
    rw [State.discardWaiting_marked (i := i)]
    · have tag : (s.frame i).resetSession.tag = (s.frame i).tag := (congrArg Frame.tag marked :)
      cases i <;> simp only [State.discardFrame, State.frame, Bool.false_eq_true, if_true, if_false] at tag ⊢ <;> rw [tag] <;> rfl
    · exact waiting
    · rw [← found]
      exact State.frameIn_congr fun j => by cases j <;> exact Frame.resetSession_solving _
    · cases i <;> exact congrArg Frame.discard marked

/-! ## MASK and RETIRE (R180, R182) -/

/-- MASK and RETIRE are taken in every session state but LAPSED (R31). -/
theorem sessionRefusal_conditions {n : SessionState} {k : Kind} (kind : k = .mask ∨ k = .retire) (notLapsed : n ≠ .lapsed) :
    sessionRefusal n k = none := by
  cases n with
  | lapsed => exact absurd rfl notLapsed
  | opened => rfl
  | dormant => rcases kind with rfl | rfl <;> rfl
  | closed => rcases kind with rfl | rfl <;> rfl

/-! ## The taking of a report (R178, R179) -/

/-- A queued record has a report's class and merge key: of some classes the class alone, of KEY_DAMAGE the slot, and of the others
the sector (R178). -/
def CondRecord.sameAs (c : CondRecord) (r : Report) : Prop :=
  c.cls = r.cls ∧
    (r.cls = .descriptor ∨ r.cls = .warning ∨ r.cls = .sessionLapse ∨ (r.cls = .keyDamage ∧ c.slot = r.slot) ∨
      (r.cls ≠ .keyDamage ∧ c.address.map sectorOf = r.address.map sectorOf))

theorem CondRecord.joins_iff (c : CondRecord) (r : Report) : c.joins r = true ↔ c.sameAs r := by
  rw [CondRecord.joins, Bool.and_eq_true, decide_eq_true_eq, decide_eq_true_eq, CondRecord.sameAs]
  refine and_congr_right fun cls => ?_
  rw [cls]
  cases r.cls <;> simp [mergeKey]

/-- The known faults after a report, and whether it is one of them (R179 step 1). -/
theorem knownFault_other {known : List Nat} {r : Report} (h : r.cls ≠ .storeUncorrected ∨ r.address = none) :
    knownFault known r = (false, known) := by
  unfold knownFault
  split
  · rename_i cls address
    rcases h with h | h
    · exact absurd cls h
    · rw [address] at h
      cases h
  · rfl

theorem knownFault_known {known : List Nat} {r : Report} {a : Nat} (cls : r.cls = .storeUncorrected) (address : r.address = some a)
    (h : sectorOf a ∈ known) : knownFault known r = (true, known) := by
  simp only [knownFault, cls, address, List.contains_iff_mem.mpr h, if_true]

/-- A new known fault stands behind at most seven older ones. -/
theorem knownFault_new {known : List Nat} {r : Report} {a : Nat} (cls : r.cls = .storeUncorrected) (address : r.address = some a)
    (h : sectorOf a ∉ known) : knownFault known r = (false, known.drop (known.length - 7) ++ [sectorOf a]) := by
  have new : known.contains (sectorOf a) = false := Bool.eq_false_iff.mpr fun e => h (List.contains_iff_mem.mp e)
  simp only [knownFault, cls, address, new, Bool.false_eq_true, if_false]
  split_ifs with full
  · rfl
  · rw [show known.length - 7 = 0 by omega, List.drop_zero]

/-- A report merges into the first record it joins. -/
theorem mergeFirst_append {r : Report} {pre post : List CondRecord} {c : CondRecord} (before : ∀ x ∈ pre, ¬x.sameAs r)
    (joins : c.sameAs r) : mergeFirst r (pre ++ c :: post) = pre ++ c.merge r :: post := by
  induction pre with
  | nil => exact if_pos ((c.joins_iff r).mpr joins)
  | cons x t ih =>
    rw [List.forall_mem_cons] at before
    obtain ⟨here, there⟩ := before
    rw [List.cons_append, mergeFirst, if_neg (fun e => here ((x.joins_iff r).mp e)), ih there]
    rfl

theorem modifyLast_append (f : CondRecord → CondRecord) (init : List CondRecord) (x : CondRecord) :
    modifyLast f (init ++ [x]) = init ++ [f x] := by
  induction init with
  | nil => rfl
  | cons y t ih =>
    cases t with
    | nil => rfl
    | cons z t => exact congrArg (y :: ·) ih

theorem any_joins_iff (q : List CondRecord) (r : Report) : q.any (fun x => x.joins r) = true ↔ ∃ x ∈ q, x.sameAs r := by
  simp only [List.any_eq_true, CondRecord.joins_iff]

/-- What the queue holds after a report that joins a queued record (R179 step 2). -/
theorem State.raise_merged {s : State} {r : Report} (joins : ∃ x ∈ s.conds.records, x.sameAs r) :
    (s.raise r).conds =
      { s.conds with known := (knownFault s.conds.known r).2, records := mergeFirst r s.conds.records } := by
  simp only [State.raise, (any_joins_iff _ r).mpr joins, if_true]

/-- What it holds after one that joins none, with room for a record (R179 step 3). -/
theorem State.raise_new {s : State} {r : Report} (alone : ¬∃ x ∈ s.conds.records, x.sameAs r)
    (room : s.conds.records.length < 16) :
    (s.raise r).conds =
      { s.conds with
        known := (knownFault s.conds.known r).2
        records := s.conds.records ++ [s.newRecord r (knownFault s.conds.known r).1 ((s.conds.counter + 1) % 65536)]
        counter := (s.conds.counter + 1) % 65536 } := by
  rw [State.raise, if_neg (fun e => alone ((any_joins_iff _ r).mp e)), if_pos room]

/-- What it holds after one that finds the queue full (R179 step 4). -/
theorem State.raise_lost {s : State} {r : Report} (alone : ¬∃ x ∈ s.conds.records, x.sameAs r)
    (full : ¬s.conds.records.length < 16) :
    (s.raise r).conds =
      { s.conds with
        known := (knownFault s.conds.known r).2
        records := modifyLast (fun x => x.overflowed r.parkNotQueued) s.conds.records } := by
  rw [State.raise, if_neg (fun e => alone ((any_joins_iff _ r).mp e)), if_neg full]

/-- Whatever becomes of a report, the mask stands and the known faults take step 1. -/
theorem State.raise_mask_known (s : State) (r : Report) :
    (s.raise r).conds.mask = s.conds.mask ∧ (s.raise r).conds.known = (knownFault s.conds.known r).2 := by
  by_cases joins : ∃ x ∈ s.conds.records, x.sameAs r
  · rw [State.raise_merged joins]
    exact ⟨rfl, rfl⟩
  by_cases room : s.conds.records.length < 16
  · rw [State.raise_new joins room]
    exact ⟨rfl, rfl⟩
  · rw [State.raise_lost joins room]
    exact ⟨rfl, rfl⟩

/-- Settles O42: MASK and RETIRE are their owner's verdicts; the taking of a report is followed step by step. -/
theorem maskAndRetire : Obligations.MaskAndRetire := by
  refine ⟨fun tag body s reach notLapsed => ⟨fun hlen => ?mask, fun empty => ?retireEmpty, fun r rest queued => ?retire⟩,
    fun s r => ?report⟩
  case mask =>
    exact exec_command_judged .mask tag reach (sessionRefusal_conditions (.inl rfl) notLapsed) hlen
  case retireEmpty =>
    have judged := exec_command_judged .retire tag (body := body) reach (sessionRefusal_conditions (.inr rfl) notLapsed) (Nat.zero_le _)
    rw [show exec (.retire tag body) s = _ from judged, judgeKind, judgeRetire, empty]
  case retire =>
    have judged := exec_command_judged .retire tag (body := body) reach (sessionRefusal_conditions (.inr rfl) notLapsed) (Nat.zero_le _)
    rw [show exec (.retire tag body) s = _ from judged, judgeKind, judgeRetire, queued]
  case report =>
    obtain ⟨mask, known⟩ := s.raise_mask_known r
    refine ⟨(s.raise r).conds, (knownFault s.conds.known r).1, s.raise_eq r, mask, ?other, ?faults, ?merged, ?new, ?lost⟩
    case other =>
      intro h
      rw [known, knownFault_other h]
      exact ⟨rfl, rfl⟩
    case faults =>
      refine fun a cls address => ⟨fun h => ?_, fun h => ?_⟩
      · rw [known, knownFault_known cls address h]
        exact ⟨rfl, rfl⟩
      · rw [known, knownFault_new cls address h]
        exact ⟨rfl, rfl⟩
    case merged =>
      intro pre c post records before joins
      rw [State.raise_merged ⟨c, by simp [records], joins⟩, records, mergeFirst_append before joins]
      exact ⟨rfl, rfl⟩
    case new =>
      intro alone room
      rw [State.raise_new (fun ⟨x, hx, h⟩ => alone x hx h) room]
      exact ⟨rfl, rfl⟩
    case lost =>
      intro alone init x records full
      have len : ¬s.conds.records.length < 16 := by
        rw [records, List.length_append, List.length_singleton]
        omega
      rw [State.raise_lost (fun ⟨x, hx, h⟩ => alone x hx h) len, records, modifyLast_append]
      exact ⟨rfl, rfl⟩

/-! ## FORMAT and PLANE (R48, R50) -/

/-- The owner's verdict on a FORMAT, with R175's check first and R50's in its order. -/
theorem judgeFormat_eq (body : List Byte) (s : State) :
    judgeFormat body s =
      if s.closingOut = true then (s, .busy)
      else if byteAt body 0 ≠ 8 ∧ byteAt body 0 ≠ 6 then (s, .range)
      else if 4294967295 ≤ s.grid.genMark then (s, .range)
      else if s.grid.lock ≠ none then (s, .busy)
      else ({ s with grid := ({ s.grid with width := byteAt body 0, shift := min (byteAt body 1) 3 }).newGeneration },
        if 3 < byteAt body 1 then .truncated else .accepted) := by
  simp only [judgeFormat, Grid.exhausted_iff, Option.isSome_iff_ne_none]

/-- R48's ranges of the fields behind the plane's number. -/
def planeRanges (body : List Byte) : Prop :=
  fieldAt body 1 2 ≤ 1023 ∧ 1 ≤ fieldAt body 3 2 ∧ fieldAt body 3 2 ≤ 65534 ∧
    1 ≤ fieldAt body 5 2 ∧ fieldAt body 5 2 ≤ 2047 ∧ fieldAt body 7 2 ≤ 4095 ∧ fieldAt body 9 2 ≤ 4095 ∧
    1 ≤ byteAt body 11 ∧ byteAt body 11 ≤ 127 ∧ byteAt body 12 ≤ 1

/-- The record an accepted PLANE sets. -/
def planeBody (body : List Byte) : PlaneRecord :=
  { gray := fieldAt body 1 2, target := fieldAt body 3 2, slope := fieldAt body 5 2, tolLo := fieldAt body 7 2,
    tolHi := fieldAt body 9 2, limit := byteAt body 11,
    rounding := if byteAt body 12 = 0 then .nearest else .towardZero }

theorem planeFieldsAt_legal {body : List Byte} (h : planeRanges body) : planeFieldsAt body 1 = some (planeBody body) := if_pos h

theorem planeFieldsAt_illegal {body : List Byte} (h : ¬planeRanges body) : planeFieldsAt body 1 = none := if_neg h

/-- A plane's number is at most 2 (R39). -/
theorem planeOf_eq_some {n : Nat} (h : n ≤ 2) : ∃ p : Plane, n = p.index := by
  match n, h with
  | 0, _ => exact ⟨.low, rfl⟩
  | 1, _ => exact ⟨.mid, rfl⟩
  | 2, _ => exact ⟨.high, rfl⟩

theorem judgePlane_range {body : List Byte} (s : State) (h : 2 < byteAt body 0 ∨ ¬planeRanges body) :
    judgePlane body s = (s, .range) := by
  unfold judgePlane
  rcases h with h | h
  · rw [planeOf_eq_none h]
  · rw [planeFieldsAt_illegal h]
    cases planeOf (byteAt body 0) <;> rfl

theorem judgePlane_legal {body : List Byte} {p : Plane} (s : State) (plane : byteAt body 0 = p.index) (h : planeRanges body) :
    judgePlane body s = ({ s with grid := s.grid.setPlane p (planeBody body) }, .accepted) := by
  rw [judgePlane, plane, planeOf_index, planeFieldsAt_legal h]

/-- Settles O44: FORMAT's chain is followed check by check; a PLANE's fields are all in their ranges or one is not. -/
theorem formatAndPlaneSetTheirFields : Obligations.FormatAndPlaneSetTheirFields := by
  refine ⟨fun tag body s hopen hlen => ?format, fun tag body s hopen hlen => ⟨fun illegal => ?refused, fun legal => ?set⟩⟩
  case format =>
    have judged : exec (.format tag body) s = .next ((judgeFormat body s).1.answered tag (judgeFormat body s).2) :=
      exec_command_open .format tag hopen hlen
    have shift : (if byteAt body 1 ≤ 3 then byteAt body 1 else 3) = min (byteAt body 1) 3 := Nat.min_def.symm
    dsimp only
    rw [judged, judgeFormat_eq, shift]
    split_ifs <;> rfl
  all_goals
    have judged : exec (.plane tag body) s = .next ((judgePlane body s).1.answered tag (judgePlane body s).2) :=
      exec_command_open .plane tag hopen hlen
  case refused =>
    have out : 2 < byteAt body 0 ∨ ¬planeRanges body := by
      by_contra inside
      rw [not_or, not_lt, not_not] at inside
      exact illegal inside
    rw [judged, judgePlane_range s out]
  case set =>
    obtain ⟨low, ranges⟩ := legal
    obtain ⟨p, plane⟩ := planeOf_eq_some low
    rw [judged, judgePlane_legal s plane ranges]
    simp only [plane]
    cases p <;> rfl

/-! ## COMMIT, PARK and SCAN (R51, R123) -/

/-- The owner's verdict on a COMMIT or a PARK, with R175's check first and R51's in its order. -/
theorem judgeGridJob_eq (kind : JobKind) (tag : Byte) (s : State) :
    judgeGridJob kind tag s =
      if s.closingOut = true then (s, .busy)
      else if s.grid.geometry = none then (s, .notReady)
      else if 4 ≤ s.seq.waiting.length then (s, .queueFull)
      else (s.queueJob (plainJob kind tag), .queued) := by
  simp only [judgeGridJob, Option.isNone_iff_eq_none, State.queueFull, decide_eq_true_eq]

/-- The owner's verdict on a SCAN (R123). -/
theorem judgeScan_eq (tag : Byte) (s : State) :
    judgeScan tag s =
      if s.closingOut = true then (s, .busy)
      else if 4 ≤ s.seq.waiting.length then (s, .queueFull)
      else (s.queueJob (plainJob .scan tag), .queued) := by
  simp only [judgeScan, State.queueFull, decide_eq_true_eq]

/-- In OPEN each of the three, with any body, is answered by its owner's verdict. -/
theorem exec_gridJob_open {s : State} (tag : Byte) (body : List Byte) (hopen : s.inOpen = true) :
    exec (.commit tag body) s = .next ((judgeGridJob .commitGrid tag s).1.answered tag (judgeGridJob .commitGrid tag s).2) ∧
    exec (.park tag body) s = .next ((judgeGridJob .park tag s).1.answered tag (judgeGridJob .park tag s).2) ∧
    exec (.scan tag body) s = .next ((judgeScan tag s).1.answered tag (judgeScan tag s).2) :=
  ⟨exec_command_open .commit tag hopen (Nat.zero_le _), exec_command_open .park tag hopen (Nat.zero_le _),
    exec_command_open .scan tag hopen (Nat.zero_le _)⟩

/-- With a layout the waiting jobs start in turn (R122). -/
theorem State.startDue_laidOut {s : State} {l : Layout} (layout : s.layout = some l) :
    s.startDue = s.startFrom l s.seq.waiting := by
  rw [State.startDue, layout]

/-- The only waiting job starts when none is in progress (R122). -/
theorem State.startDue_only {s : State} {l : Layout} {j : Job} (layout : s.layout = some l) (idle : s.seq.active = none)
    (only : s.seq.waiting = [j]) : s.startDue = State.startJob { s with seq := { s.seq with waiting := [] } } l j := by
  rw [State.startDue_laidOut layout, only, State.startFrom, if_pos (show s.seq.active.isNone = true by rw [idle]; rfl),
    State.startFrom]

/-- While a CLOSE_OUT job is in progress some job is. -/
theorem State.closingOut_idle {s : State} (idle : s.seq.active = none) : s.closingOut = false := by
  rw [State.closingOut, idle]

/-- Settles O50: the verdicts are followed check by check; an idle sequencer with nothing waiting starts the job at once. -/
theorem commitParkAndScanQueueTheirJobs : Obligations.CommitParkAndScanQueueTheirJobs := by
  refine ⟨fun tag body s hopen => ?verdicts, fun tag body s l hopen layout idle nothing geometry => ?starts⟩
  all_goals obtain ⟨commit, park, scan⟩ := exec_gridJob_open (s := s) tag body hopen
  case verdicts =>
    refine ⟨fun p hp => ?_, ?_⟩
    · simp only [List.mem_cons, List.not_mem_nil, or_false] at hp
      rcases hp with rfl | rfl
      · rw [commit, judgeGridJob_eq]
        split_ifs <;> rfl
      · rw [park, judgeGridJob_eq]
        split_ifs <;> rfl
    · rw [scan, judgeScan_eq]
      split_ifs <;> rfl
  case starts =>
    have closing := State.closingOut_idle idle
    have gridJob : ∀ k, judgeGridJob k tag s = (s.queueJob (plainJob k tag), .queued) := by
      intro k
      rw [judgeGridJob_eq, if_neg (by simp [closing]), if_neg geometry, if_neg (by simp [nothing])]
    have scanJob : judgeScan tag s = (s.queueJob (plainJob .scan tag), .queued) := by
      rw [judgeScan_eq, if_neg (by simp [closing]), if_neg (by simp [nothing])]
    have started : ∀ k, (s.queueJob (plainJob k tag)).answered tag .queued =
        (State.startJob { (s.queueJob (plainJob k tag)).noteRecord tag .queued with
          seq := { s.seq with waiting := [] } } l (plainJob k tag)).settle := fun k =>
      congrArg State.settle (State.startDue_only layout idle (by simp [State.noteRecord, State.queueJob, nothing]))
    intro p hp
    simp only [List.mem_cons, List.not_mem_nil, or_false] at hp
    simp only [gridJob, scanJob, started] at commit park scan
    rcases hp with rfl | rfl | rfl
    · exact ⟨_, _, commit, rfl, rfl, rfl, rfl⟩
    · exact ⟨_, _, park, rfl, rfl, rfl, rfl⟩
    · exact ⟨_, _, scan, rfl, rfl, rfl, rfl⟩

end Sys2Proof.Machine
end

section
/-! The framing of a program's bytes (R28, R30) and the kind bytes (03 §3.6), and the statement O37. -/

namespace Sys2Proof.Machine

/-! ## The byte a program leaves at a page offset (R28) -/

/-- A search from the end finds the last one that holds. -/
theorem find?_reverse_range {n k : Nat} {p : Nat → Bool} (inside : k < n) (holds : p k = true)
    (after : ∀ j, k < j → j < n → p j = false) : (List.range n).reverse.find? p = some k := by
  induction n with
  | zero => omega
  | succ n ih =>
    rw [List.range_succ, List.reverse_append, List.reverse_singleton, List.singleton_append, List.find?_cons]
    rcases Nat.lt_succ_iff_lt_or_eq.mp inside with earlier | rfl
    · rw [after n earlier (Nat.lt_succ_self n)]
      exact ih earlier fun j hj hn => after j hj (by omega)
    · rw [holds]

/-- The last byte of a program whose number, counted from the page's start, falls on a page offset. -/
def lastByteAt (data : List Byte) (o : Nat) : Option Byte :=
  ((List.range data.length).reverse.find? (fun k => k % 256 = o)).map (fun k => data.getD k 0)

theorem lastByteAt_eq_some {data : List Byte} {o k : Nat} (inside : k < data.length) (falls : k % 256 = o)
    (last : data.length ≤ k + 256) : lastByteAt data o = data[k]? := by
  have found : (List.range data.length).reverse.find? (fun k => decide (k % 256 = o)) = some k :=
    find?_reverse_range inside (decide_eq_true falls) fun j hj hn => decide_eq_false (by omega)
  rw [lastByteAt, found, List.getElem?_eq_getElem inside, Option.map_some, List.getD_eq_getElem?_getD, List.getElem?_eq_getElem inside,
    Option.getD_some]

theorem programmedBytes_length (data : List Byte) : (programmedBytes data).length = min 256 data.length := by
  unfold programmedBytes lastPage
  split_ifs with short
  · omega
  · simp only [List.length_append, List.length_drop, List.length_take]
    omega

/-- Each offset of the page holds the last byte that fell on it (R28). -/
theorem getElem?_programmedBytes (data : List Byte) {o : Nat} (page : o < 256) :
    (programmedBytes data)[o]? = lastByteAt data o := by
  unfold programmedBytes
  split_ifs with short
  · by_cases inside : o < data.length
    · rw [lastByteAt_eq_some inside (Nat.mod_eq_of_lt page) (by omega)]
    · have absent : (List.range data.length).reverse.find? (fun k => k % 256 = o) = none := by
        simp only [List.find?_eq_none, List.mem_reverse, List.mem_range, decide_eq_true_eq]
        omega
      rw [lastByteAt, absent, List.getElem?_eq_none (by omega), Option.map_none]
  · -- the offset's byte stands `turn` places further in the last 256, around their end
    have length : (lastPage data).length = 256 := by rw [lastPage, List.length_drop]; omega
    rw [lastByteAt_eq_some (k := data.length - 256 + (o + (256 - (data.length - 256) % 256) % 256) % 256) (by omega)
      (by omega) (by omega), ← List.getElem?_drop, ← lastPage, List.getElem?_append, List.length_drop, length]
    split_ifs with front
    · rw [List.getElem?_drop]
      exact congrArg (fun i => (lastPage data)[i]?) (by omega)
    · rw [List.getElem?_take_of_lt (by omega)]
      exact congrArg (fun i => (lastPage data)[i]?) (by omega)

/-- Counted from an offset in the page, a byte falls on a place where its number does, turned by that offset. -/
theorem lastByteAt_turned (data : List Byte) {start o : Nat} (hs : start < 256) (ho : o < 256) :
    ((List.range data.length).reverse.find? (fun k => (start + k) % 256 = o)).map (fun k => data.getD k 0) =
      lastByteAt data ((o + 256 - start) % 256) := by
  have turned : (fun k => decide ((start + k) % 256 = o)) = fun k => decide (k % 256 = (o + 256 - start) % 256) :=
    funext fun k => decide_eq_decide.mpr (by omega)
  rw [lastByteAt, turned]

/-! ## Framing (R30) -/

theorem byteAt_programmedBytes (data : List Byte) {o : Nat} (page : o < 256) :
    byteAt (programmedBytes data) o = ((lastByteAt data o).map BitVec.toNat).getD 0 := by
  rw [byteAt, List.getD_eq_getElem?_getD, getElem?_programmedBytes data page]
  cases lastByteAt data o <;> rfl

/-- The size field of a program of four bytes or more. -/
theorem fieldAt_programmedBytes {data : List Byte} (four : 4 ≤ data.length) :
    fieldAt (programmedBytes data) 2 2 =
      ((lastByteAt data 2).map BitVec.toNat).getD 0 + 256 * ((lastByteAt data 3).map BitVec.toNat).getD 0 := by
  rw [fieldAt_two (by rw [programmedBytes_length]; omega), byteAt_programmedBytes data (by omega),
    byteAt_programmedBytes data (by omega)]

/-- A program that does not begin at the page's start, is too short, or names more bytes than it has, fails its framing. -/
theorem frameRecord_unframed {offset : Nat} {data : List Byte}
    (h : data.length < 4 ∨ offset ≠ 0 ∨ min 256 data.length - 4 < fieldAt (programmedBytes data) 2 2) :
    frameRecord offset data = .inr (if data.length < 2 then some 0 else collectedTag offset data) := by
  refine if_pos ?_
  rw [programmedBytes_length]
  omega

/-- The tag of a program that fails its framing (R30). -/
theorem collectedTag_eq (data : List Byte) {offset : Nat} (page : offset < 256) :
    collectedTag offset data =
      ((List.range data.length).reverse.find? (fun k => (offset + k) % 256 = 1)).map (fun k => data.getD k 0) := by
  rw [lastByteAt_turned data page (by omega), collectedTag, Nat.mod_eq_of_lt page, getElem?_programmedBytes data (by omega)]

/-! ## The kinds (03 §3.6) -/

/-- A kind byte names the kind whose code it is. -/
theorem kindOf_eq (b : Byte) :
    kindOf b = ((Kind.all.map (fun k => (BitVec.ofNat 8 k.code, k))).find? (fun p => decide (p.1 = b))).map Prod.snd := by
  have small : ∀ k : Kind, k.code < 256 := by
    intro k
    cases k <;> decide
  have same : ∀ k : Kind, decide (BitVec.ofNat 8 k.code = b) = (k.code == b.toNat) := by
    intro k
    rw [Bool.eq_iff_iff, decide_eq_true_eq, beq_iff_eq, ← BitVec.toNat_inj, BitVec.toNat_ofNat, Nat.mod_eq_of_lt (small k)]
  rw [List.find?_map, Option.map_map]
  simp only [Function.comp_def, same, Option.map_id_fun']
  rfl

/-- Settles O37: the page the Intake collects holds at each offset the last byte that fell there, so its size field and its tag are
the statement's. -/
theorem unframedAndUnknownRecords : Obligations.UnframedAndUnknownRecords := by
  refine ⟨fun offset data s reach => ?framing, fun kind tag body s reach unknown => ?unknown, fun s tag r => ?answered,
    fun b => kindOf_eq b⟩
  case framing =>
    intro last size unframed
    have page : offset.toNat < 256 := offset.isLt
    have zero : offset ≠ 0 ↔ offset.toNat ≠ 0 := by
      rw [ne_eq, ← BitVec.toNat_inj]
      rfl
    have fails : frameRecord offset.toNat data = .inr (if data.length < 2 then some 0 else last 1) := by
      have tag : collectedTag offset.toNat data = last 1 := collectedTag_eq data page
      rw [← tag]
      refine frameRecord_unframed ?_
      by_cases short : data.length < 4
      · exact .inl short
      by_cases start : offset.toNat = 0
      · have field : fieldAt (programmedBytes data) 2 2 = size 2 + 256 * size 3 := by
          have sizes : ∀ o, o < 256 → size o = ((lastByteAt data o).map BitVec.toNat).getD 0 := by
            intro o ho
            have turned : last o = lastByteAt data ((o + 256 - offset.toNat) % 256) := lastByteAt_turned data page ho
            rw [show (o + 256 - offset.toNat) % 256 = o by omega] at turned
            simp only [size, turned]
            cases lastByteAt data o <;> rfl
          rw [fieldAt_programmedBytes (Nat.not_lt.mp short), sizes 2 (by omega), sizes 3 (by omega)]
        rw [zero] at unframed
        rw [field]
        omega
      · exact .inr (.inl start)
    have taken : exec (.recordFraming offset data) s = .next (s.takeProgram offset.toNat data).settle := by
      show Host.Outcome.next (State.settle _) = _
      rw [if_pos reach]
    rw [taken, State.takeProgram, fails]
    split_ifs with two
    · rfl
    · cases last 1 <;> rfl
  case unknown =>
    show Host.Outcome.next (State.settle _) = _
    rw [if_pos reach, State.takeFramed, unknown]
    rfl
  case answered => rfl

end Sys2Proof.Machine
end

section
/-! The records of the frames and of the key jobs at their owners (05, 11): the statements O46, O47 and O52. -/

namespace Sys2Proof.Machine

/-! ## The FILLING frame a record names (R57, R60, R62) -/

/-- A buffer in a state, behind one that is not, is the one found. -/
theorem State.frameIn_eq_some {s : State} {st : FrameState} {i : Bool} (h : (s.frame i).state = st)
    (before : i = true → s.frame0.state ≠ st) : s.frameIn st = some i := by
  cases i with
  | false => exact State.frameIn_buffer0 h
  | true => exact State.frameIn_buffer1 (before rfl) h

theorem State.fillingWith_eq_some {s : State} {tag : Byte} {i : Bool} (filling : (s.frame i).state = .filling)
    (before : i = true → s.frame0.state ≠ .filling) (named : (s.frame i).tag = tag) : s.fillingWith tag = some i := by
  rw [State.fillingWith, State.frameIn_eq_some filling before]
  exact if_pos named

theorem State.fillingWith_eq_none {s : State} {tag : Byte} (h : ∀ i, (s.frame i).state = .filling → (s.frame i).tag ≠ tag) :
    s.fillingWith tag = none := by
  unfold State.fillingWith
  split
  · rename_i i found
    exact if_neg (h i (State.frameIn_some found))
  · rfl

/-! ## ZONES (R57, R58) -/

/-- Consecutive values written: the slots from the offset on take them in turn, and every other slot stands (R58). -/
theorem getElem?_writeSlots (vs : List Nat) (slots : List (Option Nat)) (off : Nat) {k : Nat} (inside : k < slots.length) :
    (writeSlots slots off vs)[k]? = if off ≤ k ∧ k < off + vs.length then some vs[k - off]? else slots[k]? := by
  induction vs generalizing slots off with
  | nil => simp [writeSlots, show ¬(off ≤ k ∧ k < off) by omega]
  | cons v t ih =>
    rw [writeSlots, ih _ _ (by rw [List.length_set]; exact inside), List.length_cons]
    rcases Nat.lt_trichotomy k off with before | here | behind
    · rw [if_neg (by omega), if_neg (by omega), List.getElem?_set_ne (by omega)]
    · subst here
      rw [if_neg (by omega), if_pos (by omega), List.getElem?_set_self inside, Nat.sub_self, List.getElem?_cons_zero]
    · rw [show k - off = (k - (off + 1)) + 1 by omega, List.getElem?_cons_succ, List.getElem?_set_ne (by omega)]
      exact ite_congr (propext (by omega)) (fun _ => rfl) fun _ => rfl

/-- The values of a ZONES, of which value j stands at byte 6 + 2j of the body. -/
theorem getElem?_zonesValues (body : List Byte) {count j : Nat} (h : j < count) :
    (zonesValues body count)[j]? = some (fieldAt body (6 + 2 * j) 2) := by
  rw [zonesValues, List.getElem?_map, List.getElem?_range h, Option.map_some]

theorem zonesValues_length (body : List Byte) (count : Nat) : (zonesValues body count).length = count := by
  rw [zonesValues, List.length_map, List.length_range]

/-- The owner's verdict on a ZONES that names the FILLING frame, with R57's checks in its order. -/
theorem judgeZones_found {body : List Byte} {s : State} {i : Bool} (found : s.fillingWith (body.getD 0 0) = some i) :
    judgeZones body s =
      if fieldAt body 4 2 = 0 ∨ 120 < fieldAt body 4 2 then (s, .range)
      else if body.length < 6 + 2 * fieldAt body 4 2 then (s, .range)
      else if (s.frame i).rect.w * (s.frame i).rect.h ≤ fieldAt body 2 2 then (s, .range)
      else
        (s.setFrame i { s.frame i with
            slots := writeSlots (s.frame i).slots (fieldAt body 2 2) (zonesValues body (fieldAt body 4 2)) },
          if (s.frame i).rect.w * (s.frame i).rect.h < fieldAt body 2 2 + fieldAt body 4 2 then .truncated else .accepted) := by
  rw [judgeZones, found]

theorem judgeZones_absent {body : List Byte} {s : State} (absent : s.fillingWith (body.getD 0 0) = none) :
    judgeZones body s = (s, .noFrame) := by
  rw [judgeZones, absent]

/-- Settles O46: a ZONES finds its frame or none; the checks are followed, and the writing is `getElem?_writeSlots`. -/
theorem zonesFillTheirSlots : Obligations.ZonesFillTheirSlots := by
  intro tag body s hopen hlen
  have judged : exec (.zones tag body) s = .next ((judgeZones body s).1.answered tag (judgeZones body s).2) :=
    exec_command_open .zones tag hopen hlen
  refine ⟨fun absent => ?_, fun i filling before named => ⟨fun refused => ?_, fun some120 upTo120 whole inside => ?_⟩⟩
  · rw [judged, judgeZones_absent (State.fillingWith_eq_none absent)]
  all_goals rw [judged, judgeZones_found (State.fillingWith_eq_some filling before named)]
  · by_cases badCount : fieldAt body 4 2 = 0 ∨ 120 < fieldAt body 4 2
    · rw [if_pos badCount]
    by_cases short : body.length < 6 + 2 * fieldAt body 4 2
    · rw [if_neg badCount, if_pos short]
    · have outside : (s.frame i).rect.w * (s.frame i).rect.h ≤ fieldAt body 2 2 := by omega
      rw [if_neg badCount, if_neg short, if_pos outside]
  · rw [if_neg (by omega), if_neg (by omega), if_neg (by omega)]
    refine ⟨_, rfl, writeSlots_length _ _ _, fun k hk => ?_⟩
    rw [writeSlots_length] at hk
    rw [getElem?_writeSlots _ _ _ hk, zonesValues_length]
    refine ite_congr rfl (fun written => ?_) fun _ => rfl
    rw [getElem?_zonesValues body (by omega)]

/-! ## FRAME_CLOSE and FRAME_ABANDON (R60, R62) -/

/-- Beside a FILLING frame the engine takes the other one, where it is IDLE and that one is QUEUED (R63). -/
theorem State.takeFrame_beside {s : State} {i : Bool} (filling : (s.frame i).state = .filling) :
    s.takeFrame =
      if s.engine.state = .idle ∧ (s.frame (!i)).state = .queued then
        { s.setFrame (!i) { s.frame (!i) with state := .solving } with
          engine := { state := .computing, results := [], largest := 0 } }
      else s := by
  obtain ⟨j, idle, found, e⟩ | ⟨e, absent⟩ := s.takeFrame_cases <;> rw [e]
  · have queued := State.frameIn_some found
    obtain rfl : j = !i := Bool.eq_not_of_ne fun same => by
      rw [same, filling] at queued
      cases queued
    rw [if_pos ⟨idle, queued⟩]
  · rw [if_neg]
    exact fun ⟨idle, queued⟩ => State.frame_ne_of_frameIn (absent idle) (!i) queued

/-- Settles O47: each record finds its frame or none; where a close finds it, the engine first takes what it may. -/
theorem framesCloseAndAreAbandoned : Obligations.FramesCloseAndAreAbandoned := by
  intro tag body s hopen hlen
  have close : exec (.frameClose tag body) s = .next ((judgeFrameClose body s).1.answered tag (judgeFrameClose body s).2) :=
    exec_command_open .frameClose tag hopen hlen
  have abandon : exec (.frameAbandon tag body) s =
      .next ((judgeFrameAbandon body s).1.answered tag (judgeFrameAbandon body s).2) :=
    exec_command_open .frameAbandon tag hopen hlen
  refine ⟨fun absent => ?_, fun i filling before named => ?_⟩
  · have none := State.fillingWith_eq_none absent
    rw [close, abandon, judgeFrameClose, judgeFrameAbandon, none]
    exact ⟨rfl, rfl⟩
  · have found := State.fillingWith_eq_some filling before named
    rw [close, abandon, judgeFrameClose, judgeFrameAbandon, found, ← State.takeFrame_beside filling]
    exact ⟨rfl, rfl⟩

/-! ## KEY_STORE and KEY_ERASE (R161, R164) -/

/-- The owner's verdict on a KEY_STORE, with R175's check first and R161's in its order. -/
theorem judgeKeyStore_eq (tag : Byte) (s : State) :
    judgeKeyStore tag s =
      if s.closingOut = true then (s, .busy)
      else if s.staging.state ≠ .complete then (s, .stageState)
      else if s.closedFlag = true ∧ (s.keyEntry s.staging.slot).state ≠ .empty then (s, .slotLocked)
      else if (s.keyEntry s.staging.slot).state = .pending then (s, .busy)
      else if s.classTaken s.staging.slot s.staging.cls = true then (s, .classTaken)
      else if 4 ≤ s.seq.waiting.length then (s, .queueFull)
      else
        (State.queueJob { s.setKey s.staging.slot ((s.keyEntry s.staging.slot).pend s.staging.cls false) with
            staging := { s.staging with state := .held } }
          { kind := .keyStore, tag := tag, slot := s.staging.slot, sector := 0 }, .queued) := by
  simp only [judgeKeyStore, State.queueFull, decide_eq_true_eq]

/-- The owner's verdict on a KEY_ERASE, with R175's check first and R164's in its order. -/
theorem judgeKeyErase_eq (tag : Byte) (body : List Byte) (s : State) :
    judgeKeyErase tag body s =
      if s.closingOut = true then (s, .busy)
      else if 15 < byteAt body 0 then (s, .range)
      else if s.closedFlag = true then (s, .slotLocked)
      else if (s.keyEntry (byteAt body 0)).state = .empty then (s, .range)
      else if (s.keyEntry (byteAt body 0)).state = .pending then (s, .busy)
      else if 4 ≤ s.seq.waiting.length then (s, .queueFull)
      else
        (State.queueJob (s.setKey (byteAt body 0) ((s.keyEntry (byteAt body 0)).pend
            (if (s.keyEntry (byteAt body 0)).state = .present then (s.keyEntry (byteAt body 0)).cls else 0) true))
          { kind := .keyErase, tag := tag, slot := byteAt body 0, sector := 0 }, .queued) := by
  simp only [judgeKeyErase, State.queueFull, decide_eq_true_eq]

/-- Settles O52: both verdicts are followed check by check. -/
theorem keyJobsMakeTheirSlotPending : Obligations.KeyJobsMakeTheirSlotPending := by
  intro tag body s hopen
  refine ⟨?store, fun hlen => ?erase⟩
  case store =>
    have judged : exec (.keyStore tag body) s = .next ((judgeKeyStore tag s).1.answered tag (judgeKeyStore tag s).2) :=
      exec_command_open .keyStore tag hopen (Nat.zero_le _)
    dsimp only
    rw [judged, judgeKeyStore_eq]
    split_ifs <;> rfl
  case erase =>
    have judged : exec (.keyErase tag body) s =
        .next ((judgeKeyErase tag body s).1.answered tag (judgeKeyErase tag body s).2) :=
      exec_command_open .keyErase tag hopen hlen
    dsimp only
    rw [judged, judgeKeyErase_eq]
    -- the statement keeps the class's choice inside the state
    generalize (if (s.keyEntry (byteAt body 0)).state = .present then (s.keyEntry (byteAt body 0)).cls else 0) = cls
    split_ifs <;> rfl

end Sys2Proof.Machine
end

section
/-! The Solve Engine at work (06): taking, computing and publishing a frame, and the way back by ROLLBACK (07): the statements O54
and O48. -/

namespace Sys2Proof.Machine

/-! ## The engine's steps, one case each -/

/-- An IDLE engine takes the QUEUED frame (R63, R69). -/
theorem State.takeFrame_takes {s : State} {i : Bool} (idle : s.engine.state = .idle) (found : s.frameIn .queued = some i) :
    s.takeFrame = { s.setFrame i { s.frame i with state := .solving } with
      engine := { state := .computing, results := [], largest := 0 } } := by
  rw [State.takeFrame, if_pos idle, found]

/-- An engine that is not IDLE, or finds no QUEUED frame, takes none. -/
theorem State.takeFrame_stays {s : State} (h : s.engine.state ≠ .idle ∨ s.frameIn .queued = none) : s.takeFrame = s := by
  obtain ⟨i, idle, found, -⟩ | ⟨e, -⟩ := s.takeFrame_cases
  · rcases h with h | h
    · exact absurd idle h
    · rw [h] at found
      cases found
  · exact e

theorem State.endComputing_stays {s : State} (h : s.engine.state ≠ .computing) : s.endComputing = s := if_neg h

/-- A frame with the discard mark, or that can take no generation, is discarded at its end of computing (R85, R86). -/
theorem State.endComputing_discards {s : State} {i : Bool} (computing : s.engine.state = .computing)
    (found : s.frameIn .solving = some i) (h : (s.frame i).discard = true ∨ s.grid.exhausted = true) :
    s.endComputing = (s.discardFrame i).takeFrame := by
  rw [State.endComputing, if_pos computing, found]
  exact if_pos (Bool.or_eq_true _ _ ▸ h)

/-- The engine with a frame's working results, waiting to publish them (R77). -/
def State.solved (s : State) (i : Bool) : State :=
  { s with engine := { state := .publishWait, results := (solveFrame (s.frame i)).1,
                       largest := (solveFrame (s.frame i)).2 } }

/-- Any other frame enters PUBLISH_WAIT with its results, and publishes at once where the grid is free (R77, R78). -/
theorem State.endComputing_waits {s : State} {i : Bool} (computing : s.engine.state = .computing)
    (found : s.frameIn .solving = some i) (kept : (s.frame i).discard = false) (fresh : s.grid.exhausted = false) :
    s.endComputing = (s.solved i).publishWaiting := by
  rw [State.endComputing, if_pos computing, found]
  exact if_neg (by rw [kept, fresh]; nofun)

/-- A waiting frame publishes on a free grid (R78, R79). -/
theorem State.publishWaiting_publishes {s : State} {i : Bool} (waits : s.engine.state = .publishWait) (free : s.gridFree = true)
    (found : s.frameIn .solving = some i) (fresh : s.grid.exhausted = false) :
    s.publishWaiting = (s.publishFrame i).takeFrame := by
  rw [State.publishWaiting, if_pos ⟨waits, free⟩, found]
  exact if_neg (by rw [fresh]; nofun)

/-- With no generation left it is discarded (R86). -/
theorem State.publishWaiting_discards {s : State} {i : Bool} (waits : s.engine.state = .publishWait) (free : s.gridFree = true)
    (found : s.frameIn .solving = some i) (used : s.grid.exhausted = true) :
    s.publishWaiting = (s.discardFrame i).takeFrame := by
  rw [State.publishWaiting, if_pos ⟨waits, free⟩, found]
  exact if_pos used

/-- No waiting frame, or a grid that is not free, publishes nothing (R78). -/
theorem State.publishWaiting_stays {s : State}
    (h : s.engine.state ≠ .publishWait ∨ s.gridFree = false ∨ s.frameIn .solving = none) : s.publishWaiting = s := by
  obtain e | ⟨i, waits, free, found, -⟩ := s.publishWaiting_cases
  · exact e
  · rcases h with h | h | h
    · exact absurd waits h
    · rw [free] at h
      cases h
    · rw [found] at h
      cases h

/-! ## The buffer that was solved -/

/-- A buffer with a frame that was SOLVING, once emptied, leaves the search for a QUEUED one as it was. -/
theorem State.queued_of_emptied {s u : State} {i : Bool} (solving : (s.frame i).state = .solving) (empty : u.frame i = Frame.empty)
    (other : u.frame (!i) = s.frame (!i)) : u.frameIn .queued = s.frameIn .queued := by
  refine State.frameIn_congr fun j => ?_
  by_cases same : j = i
  · rw [same, empty, solving]
    exact ⟨nofun, nofun⟩
  · rw [Bool.eq_not_of_ne same, other]

theorem State.discardFrame_frame (s : State) (i : Bool) :
    (s.discardFrame i).frame i = Frame.empty ∧ (s.discardFrame i).frame (!i) = s.frame (!i) := by
  cases i <;> exact ⟨rfl, rfl⟩

theorem State.publishFrame_frame (s : State) (i : Bool) :
    (s.publishFrame i).frame i = Frame.empty ∧ (s.publishFrame i).frame (!i) = s.frame (!i) := by
  cases i <;> exact ⟨rfl, rfl⟩

/-- Beside a SOLVING frame a QUEUED one is in the other buffer. -/
theorem State.queued_beside {s : State} {i j : Bool} (solving : (s.frame i).state = .solving) (found : s.frameIn .queued = some j) :
    j = !i :=
  Bool.eq_not_of_ne fun same => by
    have queued := State.frameIn_some found
    rw [same, solving] at queued
    cases queued

/-- What the engine does once its frame is out of its buffer: nothing, or it takes the QUEUED one in the other (R68). -/
theorem State.takeFrame_next {s u : State} {i : Bool} (solving : (s.frame i).state = .solving) (empty : u.frame i = Frame.empty)
    (other : u.frame (!i) = s.frame (!i)) (idle : u.engine.state = .idle) :
    (s.frameIn .queued = none → u.takeFrame = u) ∧
      (s.frameIn .queued = some (!i) → u.takeFrame = { u.setFrame (!i) { s.frame (!i) with state := .solving } with
        engine := { state := .computing, results := [], largest := 0 } }) := by
  have same := State.queued_of_emptied solving empty other
  refine ⟨fun absent => State.takeFrame_stays (.inr (same.trans absent)), fun queued => ?_⟩
  rw [State.takeFrame_takes idle (same.trans queued), other]

/-! ## The largest adjustment (R76) -/

/-- The greatest of some numbers and a start is at least each of them, and one of them. -/
theorem foldl_max_spec (l : List Nat) (a : Nat) :
    a ≤ l.foldl max a ∧ (∀ x ∈ l, x ≤ l.foldl max a) ∧ (l.foldl max a = a ∨ l.foldl max a ∈ l) := by
  induction l generalizing a with
  | nil => exact ⟨le_rfl, List.forall_mem_nil _, .inl rfl⟩
  | cons x t ih =>
    obtain ⟨start, each, which⟩ := ih (max a x)
    rw [List.foldl_cons, List.forall_mem_cons, List.mem_cons]
    refine ⟨(Nat.le_max_left a x).trans start, ⟨(Nat.le_max_right a x).trans start, each⟩, ?_⟩
    rcases which with e | mem
    · rcases Nat.le_total a x with h | h
      · exact .inr (.inl (e.trans (Nat.max_eq_right h)))
      · exact .inl (e.trans (Nat.max_eq_left h))
    · exact .inr (.inr mem)

theorem solveFrame_spec {f : Frame} {n : Snapshot} (h : f.snapshot = some n) :
    (solveFrame f).1 = f.slots.map (fun v => (solveZone n v).1) ∧
      (∀ v ∈ f.slots, (solveZone n v).2 ≤ (solveFrame f).2) ∧ (f.slots = [] → (solveFrame f).2 = 0) ∧
      (f.slots ≠ [] → ∃ v ∈ f.slots, (solveFrame f).2 = (solveZone n v).2) := by
  rw [solveFrame_eq h]
  obtain ⟨-, each, which⟩ := foldl_max_spec (f.slots.map (fun v => (solveZone n v).2)) 0
  refine ⟨rfl, fun v hv => each _ (List.mem_map_of_mem hv), fun empty => by rw [empty]; rfl, fun some => ?_⟩
  rcases which with zero | mem
  · obtain ⟨v, hv⟩ := List.exists_mem_of_ne_nil _ some
    have least := each _ (List.mem_map_of_mem hv)
    rw [zero] at least
    exact ⟨v, hv, zero.trans (Nat.le_zero.mp least).symm⟩
  · obtain ⟨v, hv, e⟩ := List.mem_map.mp mem
    exact ⟨v, hv, e.symm⟩

theorem Grid.fresh_iff (g : Grid) : g.exhausted = false ↔ g.genMark < 4294967295 := by
  rw [← Bool.not_eq_true, Grid.exhausted_iff, Nat.not_le]

/-- Settles O54: each clause is the engine's step in that case. -/
theorem theEngineTakesAndSolvesFrames : Obligations.TheEngineTakesAndSolvesFrames := by
  refine ⟨fun s i idle found => ?take, fun s none => ?noTake, fun s idle => ?noEnd,
    fun s i computing found kept fresh => ?solves, fun s i computing found kept fresh free alone => ?publishes,
    fun s i computing found out => ?discards, fun f n snapshot => solveFrame_spec snapshot⟩
  case take => exact congrArg (fun u : State => Host.Outcome.next u.settle) (State.takeFrame_takes idle found)
  case noTake => exact congrArg (fun u : State => Host.Outcome.next u.settle) (State.takeFrame_stays none)
  case noEnd => exact congrArg (fun u : State => Host.Outcome.next u.settle) (State.endComputing_stays idle)
  all_goals have solving := State.frameIn_some found
  case solves =>
    have ends := State.endComputing_waits computing found kept ((Grid.fresh_iff _).mpr fresh)
    refine ⟨congrArg (fun u : State => Host.Outcome.next u.settle) ends, fun held => ?_⟩
    exact congrArg (fun u : State => Host.Outcome.next u.settle) (ends.trans (State.publishWaiting_stays (.inr (.inl held))))
  case publishes =>
    have unused := (Grid.fresh_iff _).mpr fresh
    have ends : s.endComputing = (s.solved i).publishFrame i := by
      rw [State.endComputing_waits computing found kept unused,
        State.publishWaiting_publishes (s := s.solved i) rfl free found unused]
      obtain ⟨empty, other⟩ := (s.solved i).publishFrame_frame i
      exact (State.takeFrame_next (s := s.solved i) solving empty other rfl).1 alone
    refine ⟨_, congrArg (fun u : State => Host.Outcome.next u.settle) ends, ?_, rfl, rfl, rfl⟩
    cases i <;> rfl
  case discards =>
    have ends := State.endComputing_discards computing found (out.imp_right (Grid.exhausted_iff _).mpr)
    obtain ⟨empty, other⟩ := s.discardFrame_frame i
    obtain ⟨alone, next⟩ := State.takeFrame_next solving empty other rfl
    refine ⟨fun absent => ?_, fun j queued => ?_⟩
    · exact congrArg (fun u : State => Host.Outcome.next u.settle) (ends.trans (alone absent))
    · obtain rfl := State.queued_beside solving queued
      exact congrArg (fun u : State => Host.Outcome.next u.settle) (ends.trans (next queued))

/-! ## ROLLBACK (R92, R93) -/

/-- Values put at other indices leave an index as it was. -/
theorem getElem?_putAt_other {α : Type} {ps : List (Nat × α)} {k : Nat} (other : ∀ p ∈ ps, p.1 ≠ k) (l : List α) :
    (putAt l ps)[k]? = l[k]? := by
  induction ps generalizing l with
  | nil => rfl
  | cons p t ih =>
    obtain ⟨here, there⟩ := List.forall_mem_cons.mp other
    rw [putAt, ih there, List.getElem?_set_ne here]

/-- The values a list had at some indices, put back where it was changed at those alone, give the list again. -/
theorem putAt_pickAt {α : Type} {l m : List α} (fill : α) (is : List Nat) (length : m.length = l.length)
    (same : ∀ k, k ∉ is → m[k]? = l[k]?) : putAt m (is.zip (pickAt l fill is)) = l := by
  induction is generalizing m with
  | nil => exact List.ext_getElem? fun k => same k List.not_mem_nil
  | cons i t ih =>
    refine ih (m := m.set i (l.getD i fill)) (by rw [List.length_set, length]) fun k hk => ?_
    by_cases here : i = k
    · subst here
      by_cases inside : i < l.length
      · rw [List.getElem?_set_self (by rw [length]; exact inside), List.getD_eq_getElem?_getD, List.getElem?_eq_getElem inside,
          Option.getD_some]
      · rw [List.getElem?_eq_none (by rw [List.length_set, length]; omega), List.getElem?_eq_none (by omega)]
    · rw [List.getElem?_set_ne here]
      exact same k fun mem => (List.mem_cons.mp mem).elim (fun e => here e.symm) hk

/-- Codes or marks put into a rectangle, and then the old ones again, leave what was there (R93). -/
theorem putAt_undone {α : Type} (l : List α) (fill : α) (is : List Nat) (vs : List α) :
    putAt (putAt l (is.zip vs)) (is.zip (pickAt l fill is)) = l :=
  putAt_pickAt fill is (putAt_length _ _) fun _ hk =>
    getElem?_putAt_other (fun _ hp e => hk (e.symm ▸ (List.of_mem_zip hp).1 :)) l

/-- The owner's verdict on a ROLLBACK, with R175's check first and R92's in its order. -/
theorem judgeRollback_eq (s : State) :
    judgeRollback s =
      if s.closingOut = true then (s, .busy)
      else if s.history.stack = [] then (s, .historyEmpty)
      else if s.grid.lock ≠ none then (s, .busy)
      else if 4294967295 ≤ s.grid.genMark then (s, .range)
      else (s.popHistory, .accepted) := by
  simp only [judgeRollback, List.isEmpty_iff, Option.isSome_iff_ne_none, Grid.exhausted_iff]

theorem exec_rollback_open {s : State} (tag : Byte) (body : List Byte) (hopen : s.inOpen = true) :
    exec (.rollback tag body) s = .next ((judgeRollback s).1.answered tag (judgeRollback s).2) :=
  exec_command_open .rollback tag hopen (Nat.zero_le _)

/-- A rollback of a frame just published: its entry goes, and the grid is as it was, but for its generation (R93). -/
theorem State.popHistory_published {s t : State} {i : Bool} (grid : t.grid = (s.publishFrame i).grid)
    (history : t.history = (s.publishFrame i).history) :
    t.popHistory.history.stack = t.history.stack.tail ∧
      t.popHistory.grid = { s.grid with generation := s.grid.genMark + 2, genMark := s.grid.genMark + 2 } ∧
      t.popHistory.report = t.report ∧ t.popHistory.classMap = t.classMap := by
  unfold State.popHistory
  rw [history]
  refine ⟨rfl, ?_, rfl, rfl⟩
  have codes := putAt_undone s.grid.codes 0 (s.grid.rectIndexes (s.frame i).plane (s.frame i).rect)
  have marks := putAt_undone s.grid.marks false (s.grid.rectIndexes (s.frame i).plane (s.frame i).rect)
  rw [grid]
  have rewritten : ∀ c m, c = s.grid.codes → m = s.grid.marks → Grid.newGeneration { (s.publishFrame i).grid with
      codes := c, marks := m } = { s.grid with generation := s.grid.genMark + 2, genMark := s.grid.genMark + 2 } := by
    rintro _ _ rfl rfl
    rfl
  exact rewritten _ _ (codes _) (marks _)

/-- Settles O48: the verdict is followed check by check; after the publish at an end of computing its entry is the top one. -/
theorem rollbackUndoesThePublish : Obligations.RollbackUndoesThePublish := by
  refine ⟨fun tag body s hopen => ?verdict, fun tag body s t i hopen _ _ computing found kept free fresh closing ended => ?undone⟩
  case verdict =>
    rw [exec_rollback_open tag body hopen, judgeRollback_eq]
    split_ifs <;> rfl
  case undone =>
    have unused : s.grid.exhausted = false := (Grid.fresh_iff _).mpr (by omega)
    have ends : s.endComputing = ((s.solved i).publishFrame i).takeFrame := by
      rw [State.endComputing_waits computing found kept unused,
        State.publishWaiting_publishes (s := s.solved i) rfl free found unused]
    have hs : t = State.settle ((s.solved i).publishFrame i).takeFrame :=
      (Host.Outcome.next.inj ended).symm.trans (congrArg State.settle ends)
    have grid : t.grid = ((s.solved i).publishFrame i).grid := by rw [hs, State.settle_grid, State.takeFrame_grid]
    have history : t.history = ((s.solved i).publishFrame i).history := by rw [hs, State.settle_history, State.takeFrame_history]
    obtain ⟨stack, back, report, classMap⟩ := State.popHistory_published grid history
    have unlocked : t.grid.lock = none := by
      have lock : t.grid.lock = s.grid.lock := (congrArg Grid.lock grid :)
      simp only [State.gridFree, Bool.and_eq_true, Option.isNone_iff_eq_none] at free
      exact lock.trans free.1
    have opened : t.inOpen = true := by
      rw [hs]
      simp only [State.inOpen, State.recordsReach, State.settle_mode, State.settle_sysHold, State.settle_sysRst,
        State.settle_upstream, State.settle_sessionState, State.takeFrame_mode, State.takeFrame_sysHold, State.takeFrame_sysRst,
        State.takeFrame_upstream, State.takeFrame_session]
      cases i <;> exact hopen
    have notClosing : t.closingOut = false := by
      rw [hs]
      simp only [State.closingOut, State.settle_seq, State.takeFrame_seq]
      cases i <;> exact closing
    have judged : judgeRollback t = (t.popHistory, .accepted) := by
      rw [judgeRollback_eq, if_neg (by rw [notClosing]; nofun), if_neg (by rw [history]; nofun),
        if_neg (not_not_intro unlocked), if_neg (by rw [grid]; exact Nat.not_le.mpr fresh)]
    refine ⟨_, by rw [exec_rollback_open tag body opened, judged], rfl, ?_⟩
    have grid' : (t.popHistory.answered tag .accepted).grid = t.popHistory.grid := rfl
    rw [grid', back]
    exact ⟨rfl, rfl, rfl, stack, report, classMap, rfl, rfl⟩

end Sys2Proof.Machine
end

section
/-! The arithmetic of one zone (R71 to R76) and the statement O55. -/

namespace Sys2Proof.Machine

/-! ## The size of an adjustment -/

/-- Rounded to nearest, the size times the slope is within half a slope of four times the deviation, above it at a tie (R73). -/
theorem adjustSize_nearest {slope : Nat} (d : Nat) (some : 1 ≤ slope) :
    8 * d ≤ 2 * (slope * adjustSize .nearest slope d) + slope ∧
      2 * (slope * adjustSize .nearest slope d) ≤ 8 * d + slope ∧
      8 * d ≠ 2 * (slope * adjustSize .nearest slope d) + slope := by
  have division := Nat.div_add_mod (8 * d + slope) (2 * slope)
  have rest := Nat.mod_lt (8 * d + slope) (show 0 < 2 * slope by omega)
  rw [Nat.mul_assoc] at division
  rw [adjustSize]
  omega

/-- Rounded toward zero, four times the deviation is less than a slope above the size times the slope (R74). -/
theorem adjustSize_towardZero {slope : Nat} (d : Nat) (some : 1 ≤ slope) :
    slope * adjustSize .towardZero slope d ≤ 4 * d ∧ 4 * d < slope * adjustSize .towardZero slope d + slope := by
  have division := Nat.div_add_mod (4 * d) slope
  have rest := Nat.mod_lt (4 * d) (show 0 < slope by omega)
  rw [adjustSize]
  omega

/-! ## The adjustment -/

/-- A value that is present and neither 0 nor 65535 is a measurement (R71). -/
theorem measuredValue_some {v : Nat} (low : 1 ≤ v) (high : v ≤ 65534) : measuredValue (some v) = some v :=
  if_neg (by omega)

theorem measuredValue_none {m : Option Nat} (h : m = none ∨ m = some 0 ∨ m = some 65535) : measuredValue m = none := by
  rcases h with rfl | rfl | rfl <;> rfl

theorem Snapshot.inBand_iff (n : Snapshot) (v : Nat) : n.inBand v = true ↔ n.tEff - n.tolLo ≤ v ∧ v ≤ n.tEff + n.tolHi := by
  rw [Snapshot.inBand, Bool.and_eq_true, decide_eq_true_eq, decide_eq_true_eq]

/-- Out of the band the adjustment has the sign of the deviation, and its size (R73, R74). -/
theorem adjustment_cases (n : Snapshot) (v : Nat) (out : ¬(n.tEff - n.tolLo ≤ v ∧ v ≤ n.tEff + n.tolHi)) :
    ∃ d : Nat,
      ((n.tEff : Int) - v = d ∧ adjustment n v = adjustSize n.rounding n.slope d) ∨
        ((n.tEff : Int) - v = -d ∧ adjustment n v = -(adjustSize n.rounding n.slope d : Int)) := by
  rcases Nat.lt_or_gt_of_ne (show n.tEff ≠ v by omega) with above | below
  · refine ⟨v - n.tEff, .inr ?_⟩
    have d : (n.tEff : Int) - v = -((v - n.tEff : Nat) : Int) := by omega
    refine ⟨d, ?_⟩
    rw [adjustment, d, Int.natAbs_neg, Int.natAbs_natCast, Int.sign_neg, Int.sign_natCast_of_ne_zero (by omega), neg_one_mul]
  · refine ⟨n.tEff - v, .inl ?_⟩
    have d : (n.tEff : Int) - v = ((n.tEff - v : Nat) : Int) := by omega
    refine ⟨d, ?_⟩
    rw [adjustment, d, Int.natAbs_natCast, Int.sign_natCast_of_ne_zero (by omega), one_mul]

/-- One zone measured outside the band takes its adjustment, limited in size by the step limit (R75). -/
theorem solveZone_outside {n : Snapshot} {v : Nat} (low : 1 ≤ v) (high : v ≤ 65534)
    (out : ¬(n.tEff - n.tolLo ≤ v ∧ v ≤ n.tEff + n.tolHi)) :
    solveZone n (some v) =
      if |adjustment n v| ≤ n.limit then ({ cls := .adjusted, adjust := adjustment n v }, (adjustment n v).natAbs)
      else ({ cls := .partialMove, adjust := (adjustment n v).sign * n.limit }, (adjustment n v).natAbs) := by
  rw [solveZone, measuredValue_some low high]
  simp only [mt (n.inBand_iff v).mp out, Bool.false_eq_true, if_false, Int.abs_eq_natAbs, Nat.cast_le]
  by_cases limited : n.limit < (adjustment n v).natAbs
  · rw [if_pos limited, if_neg (Nat.not_le.mpr limited)]
  · rw [if_neg limited, if_pos (Nat.not_lt.mp limited)]

/-- The bounds of `adjustSize_nearest`, of a deviation and an adjustment of one sign (R73). -/
theorem nearest_signed {slope d a size : Int} (size_nonneg : 0 ≤ size) (d_nonneg : 0 ≤ d) (above : 8 * d ≤ 2 * (slope * size) + slope)
    (below : 2 * (slope * size) ≤ 8 * d + slope) (tie : 8 * d ≠ 2 * (slope * size) + slope) {x : Int}
    (sign : x = d ∧ a = size ∨ x = -d ∧ a = -size) :
    2 * (4 * x) - slope ≤ 2 * (slope * a) ∧ 2 * (slope * a) ≤ 2 * (4 * x) + slope ∧
      (2 * |4 * x - slope * a| = slope → |4 * x| < slope * |a|) := by
  have abs_dev : |4 * x| = 4 * d := by
    rcases sign with ⟨rfl, -⟩ | ⟨rfl, -⟩
    · exact abs_of_nonneg (by omega)
    · rw [mul_neg, abs_neg, abs_of_nonneg (by omega)]
  have abs_adj : |a| = size := by
    rcases sign with ⟨-, rfl⟩ | ⟨-, rfl⟩
    · exact abs_of_nonneg size_nonneg
    · rw [abs_neg, abs_of_nonneg size_nonneg]
  have abs_gap : |4 * x - slope * a| = |4 * d - slope * size| := by
    rcases sign with ⟨rfl, rfl⟩ | ⟨rfl, rfl⟩
    · rfl
    · rw [← abs_neg]
      ring_nf
  have product : slope * a = slope * size ∧ x = d ∨ slope * a = -(slope * size) ∧ x = -d := by
    rcases sign with ⟨rfl, rfl⟩ | ⟨rfl, rfl⟩
    · exact .inl ⟨rfl, rfl⟩
    · exact .inr ⟨mul_neg _ _, rfl⟩
  rw [abs_dev, abs_adj, abs_gap]
  generalize slope * size = p at *
  generalize slope * a = p' at *
  refine ⟨by omega, by omega, fun gap => ?_⟩
  rcases abs_cases (4 * d - p) with ⟨e, -⟩ | ⟨e, -⟩ <;> omega

/-- The bounds of `adjustSize_towardZero`, of a deviation and an adjustment of one sign (R74). -/
theorem towardZero_signed {slope d a size : Int} (slope_nonneg : 0 ≤ slope) (size_nonneg : 0 ≤ size) (d_nonneg : 0 ≤ d)
    (below : slope * size ≤ 4 * d) (above : 4 * d < slope * size + slope) {x : Int}
    (sign : x = d ∧ a = size ∨ x = -d ∧ a = -size) :
    |slope * a| ≤ |4 * x| ∧ |4 * x| < |slope * a| + slope ∧ 0 ≤ a * x := by
  have product := mul_nonneg slope_nonneg size_nonneg
  rcases sign with ⟨rfl, rfl⟩ | ⟨rfl, rfl⟩
  · rw [abs_of_nonneg product, abs_of_nonneg (by omega : (0 : Int) ≤ 4 * x)]
    exact ⟨below, above, mul_nonneg size_nonneg d_nonneg⟩
  · rw [mul_neg, mul_neg, abs_neg, abs_neg, abs_of_nonneg product, abs_of_nonneg (by omega : (0 : Int) ≤ 4 * d), neg_mul_neg]
    exact ⟨below, above, mul_nonneg size_nonneg d_nonneg⟩

/-- Settles O55: the deviation is a natural number with a sign, and the size's bounds carry over to both signs. -/
theorem zonesAreSolvedByTheRules : Obligations.ZonesAreSolvedByTheRules := by
  intro n m slope _
  refine ⟨fun missing => ?_, fun v value low high => ⟨fun within => ?_, fun out => ⟨adjustment n v, ?_, ?_, ?_⟩⟩⟩
  · rw [solveZone, measuredValue_none missing]
  · rw [value, solveZone, measuredValue_some low high]
    exact if_pos ((n.inBand_iff v).mpr within)
  · intro nearest
    obtain ⟨d, sign⟩ := adjustment_cases n v out
    obtain ⟨above, below, tie⟩ := adjustSize_nearest d slope
    rw [nearest] at sign
    zify at above below tie
    exact nearest_signed (Int.natCast_nonneg _) (Int.natCast_nonneg _) above below tie sign
  · intro towardZero
    obtain ⟨d, sign⟩ := adjustment_cases n v out
    obtain ⟨below, above⟩ := adjustSize_towardZero d slope
    rw [towardZero] at sign
    zify at above below
    exact towardZero_signed (Int.natCast_nonneg _) (Int.natCast_nonneg _) (Int.natCast_nonneg _) below above sign
  · rw [value, solveZone_outside low high out]

end Sys2Proof.Machine
end

section
/-! The publish of a frame (R79 to R83, R89 to R91), and the statement O56. -/

namespace Sys2Proof.Machine

/-! ## Where a rectangle's zones stand (R39) -/

/-- The place of a rectangle's zone in grid order, by its slot number. -/
def Grid.placeOf (g : Grid) (r : Rect) (j : Nat) : Nat := (r.y0 + j / r.w) * g.cols + (r.x0 + j % r.w)

/-- The place of that zone's code at a plane. -/
def Grid.indexOf (g : Grid) (p : Plane) (r : Rect) (j : Nat) : Nat := p.index * g.zones + g.placeOf r j

theorem Grid.rectIndexes_eq (g : Grid) (p : Plane) (r : Rect) :
    g.rectIndexes p r = (List.range (r.w * r.h)).map (g.indexOf p r) :=
  List.map_congr_left fun _ _ => Nat.add_assoc _ _ _

theorem Grid.zoneIndexes_eq (g : Grid) (r : Rect) : g.zoneIndexes r = (List.range (r.w * r.h)).map (g.placeOf r) := rfl

/-- The rectangle's zones lie in the grid, each at a place of its own. -/
theorem Grid.placeOf_lt {g : Grid} {r : Rect} (inside : g.holdsRect r = true) {j : Nat} (hj : j < r.w * r.h) :
    g.placeOf r j < g.zones := by
  simp only [Grid.holdsRect, Bool.and_eq_true, decide_eq_true_eq] at inside
  obtain ⟨⟨⟨wide, -⟩, right⟩, bottom⟩ := inside
  have column : j % r.w < r.w := Nat.mod_lt _ (Nat.pos_of_ne_zero wide)
  have row : j / r.w < r.h := Nat.div_lt_of_lt_mul hj
  calc g.placeOf r j < (r.y0 + j / r.w) * g.cols + g.cols := Nat.add_lt_add_left (by omega) _
    _ = (r.y0 + j / r.w + 1) * g.cols := (Nat.succ_mul _ _).symm
    _ ≤ g.rows * g.cols := Nat.mul_le_mul_right _ (by omega)
    _ = g.zones := Nat.mul_comm _ _

theorem Grid.placeOf_inj {g : Grid} {r : Rect} (inside : g.holdsRect r = true) {j k : Nat} (same : g.placeOf r j = g.placeOf r k) :
    j = k := by
  simp only [Grid.holdsRect, Bool.and_eq_true, decide_eq_true_eq] at inside
  obtain ⟨⟨⟨wide, -⟩, right⟩, -⟩ := inside
  have column : ∀ i, r.x0 + i % r.w < g.cols := fun i => by
    have := Nat.mod_lt i (Nat.pos_of_ne_zero wide)
    omega
  have some : 0 < g.cols := by omega
  have rows := congrArg (· / g.cols) same
  have columns := congrArg (· % g.cols) same
  simp only [Grid.placeOf, Nat.mod_eq_of_lt (column _), Nat.mul_comm _ g.cols, Nat.mul_add_div some,
    Nat.div_eq_of_lt (column _), Nat.mul_add_mod] at rows columns
  rw [← Nat.div_add_mod j r.w, ← Nat.div_add_mod k r.w, show j / r.w = k / r.w by omega, show j % r.w = k % r.w by omega]

theorem Grid.indexOf_lt {g : Grid} {p : Plane} {r : Rect} (inside : g.holdsRect r = true) {j : Nat} (hj : j < r.w * r.h) :
    g.indexOf p r j < 3 * g.zones := by
  have place := Grid.placeOf_lt inside hj
  unfold Grid.indexOf
  cases p <;> simp only [Plane.index] <;> omega

theorem Grid.indexOf_inj {g : Grid} {p : Plane} {r : Rect} (inside : g.holdsRect r = true) {j k : Nat}
    (same : g.indexOf p r j = g.indexOf p r k) : j = k :=
  Grid.placeOf_inj inside (Nat.add_left_cancel same)

/-! ## Values put at places of their own -/

theorem putAt_append {α : Type} (l : List α) (ps qs : List (Nat × α)) : putAt l (ps ++ qs) = putAt (putAt l ps) qs := by
  induction ps generalizing l with
  | nil => rfl
  | cons p t ih => exact ih _

/-- Values put at numbered places, one to a place. -/
theorem getElem?_putAt_numbered {α : Type} {n j : Nat} {place : Nat → Nat} {value : Nat → α} (l : List α)
    (apart : ∀ j k, place j = place k → j = k) (hj : j < n) (inside : place j < l.length) :
    (putAt l ((List.range n).map fun j => (place j, value j)))[place j]? = some (value j) := by
  induction n with
  | zero => omega
  | succ n ih =>
    rw [List.range_succ, List.map_append, putAt_append, List.map_singleton, putAt, putAt]
    rcases Nat.lt_succ_iff_lt_or_eq.mp hj with earlier | rfl
    · rw [List.getElem?_set_ne fun e => by have := apart _ _ e; omega]
      exact ih earlier
    · rw [List.getElem?_set_self (by rw [putAt_length]; exact inside)]

/-- A list of a length, value by value. -/
theorem eq_map_getD {α : Type} (l : List α) (fill : α) : l = (List.range l.length).map (fun j => l.getD j fill) := by
  refine List.ext_getElem? fun k => ?_
  rw [List.getElem?_map]
  by_cases inside : k < l.length
  · rw [List.getElem?_range inside, Option.map_some, List.getD_eq_getElem?_getD, List.getElem?_eq_getElem inside,
      Option.getD_some]
  · rw [List.getElem?_eq_none (by omega), List.getElem?_eq_none (by rw [List.length_range]; omega), Option.map_none]

theorem pickAt_range {α : Type} (l : List α) (fill : α) (place : Nat → Nat) (n : Nat) :
    pickAt l fill ((List.range n).map place) = (List.range n).map (fun j => l.getD (place j) fill) :=
  List.map_map ..

/-! ## One zone published (R80, R81) -/

/-- A zone is measured outside the band. -/
def ZoneResult.moves (r : ZoneResult) : Prop := r.cls ≠ .unmeasured ∧ r.cls ≠ .inBand

theorem publishZone_still {r : ZoneResult} (c : Int) (still : ¬r.moves) : publishZone c r = (c, r.cls) := by
  unfold ZoneResult.moves at still
  unfold publishZone
  cases h : r.cls <;> simp_all

/-- A zone that moves takes its sum, clamped to a code, and is SATURATED where it was clamped (R80). -/
theorem publishZone_moves {r : ZoneResult} (c : Int) (moves : r.moves) :
    publishZone c r = (max (-128) (min 127 (c + r.adjust)),
      if c + r.adjust < -128 ∨ 127 < c + r.adjust then .saturated else r.cls) := by
  obtain ⟨measured, outside⟩ := moves
  have clamped : publishZone c r =
      if 127 < c + r.adjust then (127, .saturated)
      else if c + r.adjust < -128 then (-128, .saturated) else (c + r.adjust, r.cls) := by
    unfold publishZone
    cases h : r.cls <;> simp_all
  rw [clamped]
  by_cases high : 127 < c + r.adjust
  · rw [if_pos high, if_pos (.inr high), show max (-128) (min 127 (c + r.adjust)) = 127 by omega]
  by_cases low : c + r.adjust < -128
  · rw [if_neg high, if_pos low, if_pos (.inl low), show max (-128) (min 127 (c + r.adjust)) = -128 by omega]
  · rw [if_neg high, if_neg low, if_neg (fun h => h.elim low high),
      show max (-128) (min 127 (c + r.adjust)) = c + r.adjust by omega]

/-- The mark of a zone stands where it was not measured, and clears where it was (R81). -/
theorem publishMark_published (mark : Bool) (c : Int) (r : ZoneResult) :
    publishMark mark (publishZone c r).2 = (decide (r.cls = .unmeasured) && mark) := by
  by_cases moves : r.moves
  · have measured : r.cls ≠ .unmeasured := moves.1
    rw [publishZone_moves c moves, decide_eq_false measured, Bool.false_and]
    dsimp only
    split_ifs
    · rfl
    · cases h : r.cls <;> simp_all [publishMark]
  · rw [publishZone_still c moves]
    unfold ZoneResult.moves at moves
    cases h : r.cls <;> simp_all [publishMark]

/-! ## The least and the greatest code (R83) -/

theorem leastCode_spec (l : List Int) (m : Int) :
    leastCode m l ≤ m ∧ (∀ c ∈ l, leastCode m l ≤ c) ∧ (leastCode m l = m ∨ leastCode m l ∈ l) := by
  induction l generalizing m with
  | nil => exact ⟨le_rfl, List.forall_mem_nil _, .inl rfl⟩
  | cons c t ih =>
    obtain ⟨start, each, which⟩ := ih (if c < m then c else m)
    have first : leastCode m (c :: t) ≤ m ∧ leastCode m (c :: t) ≤ c := by
      have : leastCode m (c :: t) ≤ if c < m then c else m := start
      split_ifs at this <;> omega
    refine ⟨first.1, List.forall_mem_cons.mpr ⟨first.2, each⟩, ?_⟩
    rw [leastCode, List.mem_cons]
    rcases which with e | mem
    · rw [e]
      split_ifs <;> simp
    · exact .inr (.inr mem)

theorem greatestCode_spec (l : List Int) (m : Int) :
    m ≤ greatestCode m l ∧ (∀ c ∈ l, c ≤ greatestCode m l) ∧ (greatestCode m l = m ∨ greatestCode m l ∈ l) := by
  induction l generalizing m with
  | nil => exact ⟨le_rfl, List.forall_mem_nil _, .inl rfl⟩
  | cons c t ih =>
    obtain ⟨start, each, which⟩ := ih (if m < c then c else m)
    have first : m ≤ greatestCode m (c :: t) ∧ c ≤ greatestCode m (c :: t) := by
      have : (if m < c then c else m) ≤ greatestCode m (c :: t) := start
      split_ifs at this <;> omega
    refine ⟨first.1, List.forall_mem_cons.mpr ⟨first.2, each⟩, ?_⟩
    rw [greatestCode, List.mem_cons]
    rcases which with e | mem
    · rw [e]
      split_ifs <;> simp
    · exact .inr (.inr mem)

/-- Of codes there are, the least and the greatest are among them and bound them. -/
theorem extremeCodes {l : List Int} (some : l ≠ []) :
    (∀ c ∈ l, leastCode (l.headD 0) l ≤ c ∧ c ≤ greatestCode (l.headD 0) l) ∧ leastCode (l.headD 0) l ∈ l ∧
      greatestCode (l.headD 0) l ∈ l := by
  obtain ⟨-, least, isLeast⟩ := leastCode_spec l (l.headD 0)
  obtain ⟨-, greatest, isGreatest⟩ := greatestCode_spec l (l.headD 0)
  have head : l.headD 0 ∈ l := by
    cases l with
    | nil => exact absurd rfl some
    | cons c t => exact List.mem_cons_self
  exact ⟨fun c hc => ⟨least c hc, greatest c hc⟩, isLeast.elim (fun e => e.symm ▸ head) id,
    isGreatest.elim (fun e => e.symm ▸ head) id⟩

/-! ## The history entry (R90) -/

/-- What stays below a new entry is the longest top part of the stack that leaves room for it (R90). -/
theorem keepTop_longest {p : Nat} (small : p ≤ 18432) (stack : List HistoryEntry) (n : Nat) (len : n ≤ stack.length) :
    ∃ m, m ≤ n ∧ keepTop p stack n = stack.take m ∧ fitsPush p (stack.take m) = true ∧
      (m < n → fitsPush p (stack.take (m + 1)) = false) := by
  induction n with
  | zero => exact ⟨0, le_rfl, rfl, by simp [fitsPush, payloadTotal, small], fun h => absurd h (Nat.lt_irrefl 0)⟩
  | succ n ih =>
    unfold keepTop
    split_ifs with fits
    · exact ⟨n + 1, le_rfl, rfl, fits, fun h => absurd h (Nat.lt_irrefl _)⟩
    · obtain ⟨m, le, kept, room, more⟩ := ih (by omega)
      refine ⟨m, by omega, kept, room, fun _ => ?_⟩
      rcases Nat.lt_or_ge m n with lt | ge
      · exact more lt
      · rw [Nat.le_antisymm le ge]
        exact eq_false_of_ne_true fits

/-- An entry pushed: below it stays a top part of the stack within the bounds, and the next older entry would break them. -/
theorem History.push_spec (h : History) {e : HistoryEntry} (small : e.payload ≤ 18432) :
    ∃ rest gone, h.push e =
        { stack := e :: rest, truncated := min 65535 (h.truncated + (h.stack.length - rest.length)) } ∧
      h.stack = rest ++ gone ∧ rest.length + 1 ≤ 8 ∧ payloadTotal rest + e.payload ≤ 18432 ∧
      ∀ x more, gone = x :: more → rest.length + 2 > 8 ∨ payloadTotal (rest ++ [x]) + e.payload > 18432 := by
  obtain ⟨m, -, kept, room, longest⟩ := keepTop_longest small h.stack h.stack.length le_rfl
  refine ⟨h.stack.take m, h.stack.drop m, by rw [History.push, kept], (List.take_append_drop m _).symm, ?_⟩
  simp only [fitsPush, Bool.and_eq_true, decide_eq_true_eq] at room
  refine ⟨room.1, room.2, fun x more gone => ?_⟩
  have inside : m < h.stack.length := by
    by_contra out
    rw [List.drop_of_length_le (by omega)] at gone
    cases gone
  have next : h.stack.take (m + 1) = h.stack.take m ++ [x] := by
    have here : h.stack[m]? = some x := by rw [← List.head?_drop, gone, List.head?_cons]
    rw [List.take_add_one, here, Option.toList_some]
  have broken := longest inside
  simp only [next, fitsPush, List.length_append, List.length_singleton, Bool.and_eq_false_iff, decide_eq_false_iff_not] at broken
  omega

/-! ## The publish -/

/-- What a publish makes of the rectangle's zone of a slot: its code and its class (R80). -/
def State.newZone (s : State) (i : Bool) (j : Nat) : Int × ZoneClass :=
  publishZone (s.grid.codes.getD (s.grid.indexOf (s.frame i).plane (s.frame i).rect j) 0)
    (s.engine.results.getD j { cls := .unmeasured, adjust := 0 })

/-- The history entry of a publish: the codes and the marks that stood (R89). -/
def State.oldZones (s : State) (i : Bool) : HistoryEntry :=
  let f := s.frame i
  { plane := f.plane, rect := f.rect, tag := f.tag
    codes := (List.range (f.rect.w * f.rect.h)).map (fun j => s.grid.codes.getD (s.grid.indexOf f.plane f.rect j) 0)
    marks := (List.range (f.rect.w * f.rect.h)).map (fun j => s.grid.marks.getD (s.grid.indexOf f.plane f.rect j) false) }

/-- The report of a publish (R83). -/
def State.newReport (s : State) (i : Bool) : SolveReport :=
  let f := s.frame i
  let zones := (List.range (f.rect.w * f.rect.h)).map (s.newZone i)
  let count := fun c => (zones.map Prod.snd).count c
  { tag := f.tag, plane := f.plane, rect := f.rect, unmeasured := count .unmeasured, inBand := count .inBand,
    adjusted := count .adjusted, partialMoves := count .partialMove, saturated := count .saturated,
    largest := s.engine.largest, minCode := leastCode ((zones.map Prod.fst).headD 0) (zones.map Prod.fst),
    maxCode := greatestCode ((zones.map Prod.fst).headD 0) (zones.map Prod.fst), generation := s.grid.genMark + 1 }

/-- A publish, zone by zone, of a frame with a result for each of its zones. -/
theorem State.publishFrame_zones {s : State} {i : Bool}
    (results : s.engine.results.length = (s.frame i).rect.w * (s.frame i).rect.h) :
    let f := s.frame i
    let n := f.rect.w * f.rect.h
    s.publishFrame i = { s.setFrame i Frame.empty with
      grid := { s.grid with
        codes := putAt s.grid.codes ((List.range n).map fun j => (s.grid.indexOf f.plane f.rect j, (s.newZone i j).1))
        marks := putAt s.grid.marks ((List.range n).map fun j => (s.grid.indexOf f.plane f.rect j,
          publishMark (s.grid.marks.getD (s.grid.indexOf f.plane f.rect j) false) (s.newZone i j).2))
        generation := s.grid.genMark + 1
        genMark := s.grid.genMark + 1 }
      history := s.history.push (s.oldZones i)
      classMap := putAt (List.replicate s.grid.zones none)
        ((List.range n).map fun j => (s.grid.placeOf f.rect j, some (s.newZone i j).2))
      report := some (s.newReport i)
      intake := { s.intake with outcomes := recordOutcome s.intake.outcomes solveEntry f.tag .done 0 }
      session := { s.session with publishSeen := true }
      engine := { state := .idle, results := [], largest := 0 } } := by
  have zones : List.zipWith publishZone
      (pickAt s.grid.codes 0 (s.grid.rectIndexes (s.frame i).plane (s.frame i).rect)) s.engine.results =
      (List.range ((s.frame i).rect.w * (s.frame i).rect.h)).map (s.newZone i) := by
    rw [Grid.rectIndexes_eq, pickAt_range, eq_map_getD s.engine.results { cls := .unmeasured, adjust := 0 }, results,
      List.zipWith_map, List.zipWith_self]
    rfl
  unfold State.publishFrame
  dsimp only
  rw [zones]
  simp only [Grid.rectIndexes_eq, Grid.zoneIndexes_eq, pickAt_range, List.map_map, List.zipWith_map, List.zipWith_self,
    List.zip_map', Function.comp_def]
  simp only [State.newReport, State.oldZones, List.map_map, Function.comp_def]
  rfl

/-- A publish and the taking behind it change these fields alone. -/
theorem State.takeFrame_publishFrame (s : State) (i : Bool) :
    (s.publishFrame i).takeFrame = { s with
      grid := { s.grid with codes := (s.publishFrame i).grid.codes, marks := (s.publishFrame i).grid.marks,
                            generation := s.grid.genMark + 1, genMark := s.grid.genMark + 1 }
      frame0 := (s.publishFrame i).takeFrame.frame0, frame1 := (s.publishFrame i).takeFrame.frame1
      engine := (s.publishFrame i).takeFrame.engine
      report := (s.publishFrame i).report, classMap := (s.publishFrame i).classMap, history := (s.publishFrame i).history
      intake := { s.intake with outcomes := recordOutcome s.intake.outcomes solveEntry (s.frame i).tag .done 0 }
      session := { s.session with publishSeen := true } } :=
  (State.takeFrame_eq _).trans (by cases i <;> rfl)

/-- The buffers and the engine once the engine's frame is gone (R68): its buffer is empty, and a QUEUED frame is taken. -/
theorem State.takeFrame_taken {s u : State} {i : Bool} (solving : (s.frame i).state = .solving) (empty : u.frame i = Frame.empty)
    (other : u.frame (!i) = s.frame (!i)) (idle : u.engine = { state := .idle, results := [], largest := 0 }) :
    u.takeFrame.frame i = Frame.empty ∧
    (s.frameIn .queued = none → u.takeFrame.frame (!i) = s.frame (!i) ∧
      u.takeFrame.engine = { state := .idle, results := [], largest := 0 }) ∧
    (s.frameIn .queued = some (!i) → u.takeFrame.frame (!i) = { s.frame (!i) with state := .solving } ∧
      u.takeFrame.engine = { state := .computing, results := [], largest := 0 }) := by
  obtain ⟨alone, next⟩ := State.takeFrame_next solving empty other (by rw [idle])
  refine ⟨?_, fun absent => ?_, fun queued => ?_⟩
  · cases queued : s.frameIn .queued with
    | none => rw [alone queued, empty]
    | some j =>
      rw [next (queued.trans (congrArg some (State.queued_beside solving queued)))]
      have kept := u.setFrame_other (!i) { s.frame (!i) with state := .solving }
      rw [Bool.not_not] at kept
      exact kept.trans empty
  · rw [alone absent]
    exact ⟨other, idle⟩
  · rw [next queued]
    exact ⟨u.setFrame_frame (!i) _, rfl⟩

/-- How many of some zones have a class. -/
theorem count_class {n : Nat} {zone : Nat → Int × ZoneClass} {cls : Nat → ZoneClass} (same : ∀ j, (zone j).2 = cls j) (c : ZoneClass) :
    (((List.range n).map zone).map Prod.snd).count c = ((List.range n).filter (fun j => decide (cls j = c))).length := by
  rw [List.count, List.map_map, List.countP_map, List.countP_eq_length_filter]
  simp only [Function.comp_def, same, beq_eq_decide]

/-- Settles O56: the publish is read zone by zone (`State.publishFrame_zones`), its zones standing at places of their own. -/
theorem publishWritesTheFrame : Obligations.PublishWritesTheFrame := by
  refine ⟨fun s i sound waits found free fresh results => ?publishes, fun s i waits found free used => ?discards, fun s none => ?stays⟩
  case stays => exact congrArg (fun u : State => Host.Outcome.next u.settle) (State.publishWaiting_stays none)
  case discards =>
    have solving := State.frameIn_some found
    obtain ⟨empty, other⟩ := s.discardFrame_frame i
    refine ⟨_, congrArg (fun u : State => Host.Outcome.next u.settle)
      (State.publishWaiting_discards waits free found ((Grid.exhausted_iff _).mpr used)),
      State.takeFrame_taken solving empty other rfl, ?_⟩
    exact congrArg State.settle ((State.takeFrame_eq _).trans (by cases i <;> rfl))
  case publishes =>
    have solving := State.frameIn_some found
    obtain ⟨empty, other⟩ := s.publishFrame_frame i
    intro f n place index result moves sum code cls count
    have zone : ∀ j, s.newZone i j = (code j, cls j) := by
      intro j
      by_cases h : moves j
      · have published := publishZone_moves (s.grid.codes.getD (index j) 0) (r := result j) h
        rw [show s.newZone i j = _ from published]
        simp only [code, cls, h, true_and, if_true]
        rfl
      · have published := publishZone_still (s.grid.codes.getD (index j) 0) (r := result j) h
        rw [show s.newZone i j = _ from published]
        simp only [code, cls, h, false_and, if_false]
    have written := State.publishFrame_zones results
    have inside : s.grid.holdsRect f.rect = true := (State.gridSound_busyFrame sound found nofun).1
    obtain ⟨grid, -⟩ := id sound
    obtain ⟨-, codesLength, marksLength, -⟩ := id grid
    have small : (s.oldZones i).payload ≤ 18432 := by
      have := Grid.rect_zones_le grid inside
      show n + ceilDiv n 8 ≤ 18432
      unfold ceilDiv
      omega
    obtain ⟨rest, gone, pushed, stack, room, total, longest⟩ := s.history.push_spec small
    have codes : ((s.publishFrame i).takeFrame.settle).grid.codes =
        putAt s.grid.codes ((List.range n).map fun j => (index j, code j)) := by
      rw [State.settle_grid, State.takeFrame_grid, written]
      simp only [zone]
      rfl
    have marks : ((s.publishFrame i).takeFrame.settle).grid.marks = putAt s.grid.marks ((List.range n).map fun j =>
        (index j, decide ((result j).cls = .unmeasured) && s.grid.marks.getD (index j) false)) := by
      rw [State.settle_grid, State.takeFrame_grid, written]
      simp only [State.newZone, publishMark_published]
      rfl
    have classMap : ((s.publishFrame i).takeFrame.settle).classMap =
        putAt (List.replicate s.grid.zones none) ((List.range n).map fun j => (place j, some (cls j))) := by
      rw [State.settle_classMap, State.takeFrame_classMap, written]
      simp only [zone]
      rfl
    have apart : ∀ j k, index j = index k → j = k := fun j k => Grid.indexOf_inj inside
    have placesApart : ∀ j k, place j = place k → j = k := fun j k => Grid.placeOf_inj inside
    have elsewhere : ∀ {α : Type} (l : List α) (place : Nat → Nat) (value : Nat → α) (k : Nat), (∀ j, j < n → k ≠ place j) →
        (putAt l ((List.range n).map fun j => (place j, value j)))[k]? = l[k]? := fun l place value k other =>
      getElem?_putAt_other (List.forall_mem_map.mpr fun j hj => (other j (List.mem_range.mp hj)).symm) l
    refine ⟨_, s.newReport i, s.oldZones i, rest, congrArg (fun u : State => Host.Outcome.next u.settle)
      (State.publishWaiting_publishes waits free found ((Grid.fresh_iff _).mpr fresh)),
      State.takeFrame_taken solving empty other rfl, ?whole, rfl, ⟨gone, stack, room, total, longest⟩, ?zones, ?others, ?classes,
      ?length, ?report, ?extremes⟩
    case whole =>
      have report : (s.publishFrame i).report = some (s.newReport i) := by rw [written]
      have history : (s.publishFrame i).history = s.history.push (s.oldZones i) := by rw [written]
      refine congrArg State.settle ((State.takeFrame_publishFrame s i).trans ?_)
      rw [report, history, pushed, State.settle_grid, State.takeFrame_grid, State.settle_classMap, State.takeFrame_classMap]
      rfl
    case zones =>
      intro j hj
      rw [codes, marks, classMap]
      refine ⟨getElem?_putAt_numbered _ apart hj ?_, getElem?_putAt_numbered _ apart hj ?_,
        getElem?_putAt_numbered _ placesApart hj ?_⟩
      · rw [codesLength]
        exact Grid.indexOf_lt inside hj
      · rw [marksLength]
        exact Grid.indexOf_lt inside hj
      · rw [List.length_replicate]
        exact Grid.placeOf_lt inside hj
    case others =>
      intro k other
      rw [codes, marks]
      exact ⟨elsewhere _ _ _ k other, elsewhere _ _ _ k other⟩
    case classes =>
      intro k hk other
      rw [classMap, elsewhere _ _ _ k other, List.getElem?_replicate_of_lt hk]
    case length => rw [classMap, putAt_length, List.length_replicate]
    case report =>
      have counts := count_class (n := (s.frame i).rect.w * (s.frame i).rect.h) (zone := s.newZone i) (cls := cls) fun j => by
        rw [zone]
      simp only [State.newReport, counts]
      rfl
    case extremes =>
      intro some
      have newCodes : ((List.range n).map (s.newZone i)).map Prod.fst = (List.range n).map code := by
        rw [List.map_map]
        exact List.map_congr_left fun j _ => congrArg Prod.fst (zone j)
      obtain ⟨bounds, least, greatest⟩ := extremeCodes (l := ((List.range n).map (s.newZone i)).map Prod.fst)
        (by rw [newCodes]; simpa using Nat.ne_of_gt some)
      have mem : ∀ c, c ∈ ((List.range n).map (s.newZone i)).map Prod.fst ↔ ∃ j, j ∈ List.range n ∧ code j = c := fun c => by
        rw [newCodes, List.mem_map]
      refine ⟨fun j hj => bounds _ ((mem _).mpr ⟨j, List.mem_range.mpr hj, rfl⟩), ?_, ?_⟩
      · obtain ⟨j, hj, e⟩ := (mem _).mp least
        exact ⟨j, List.mem_range.mp hj, e⟩
      · obtain ⟨j, hj, e⟩ := (mem _).mp greatest
        exact ⟨j, List.mem_range.mp hj, e⟩

end Sys2Proof.Machine
end

section
/-! The lines and the timer that follow the state, and the clock and the timers (02, 13): the statements O3 and O26. -/

namespace Sys2Proof.Machine

/-! ## ATTN, the lamp and the idle timer (R21, R26, R182) -/

/-- The lamp's timer turns a flashing lamp on and off and leaves its pattern (R26). -/
theorem Lamp.flashTimer_eq (l : Lamp) :
    l.flashTimer = { l with lit := match l.pattern with | .flash _ _ => !l.lit | _ => l.lit } := by
  obtain ⟨pattern, lit⟩ := l
  cases pattern <;> rfl

theorem Lamp.flashTimer_pattern (l : Lamp) : l.flashTimer.pattern = l.pattern := by
  rw [Lamp.flashTimer_eq]

/-- The lamp has the pattern it had, or is as power-on leaves it. -/
def State.lampFrom (p : LampPattern) (s : State) : Prop := s.lamp.pattern = p ∨ s.lamp = { pattern := .released, lit := false }

/-- Until its lines are judged afresh no command gives the lamp another pattern, but for a change of power. -/
theorem State.lampFrom_kept (p : LampPattern) : Kept (fun _ => True) (State.lampFrom p) :=
  Kept.ofFlash (fun {s u} h _ _ e => by rw [State.lampFrom, e]; exact h)
    (fun {s} h => by
      rcases h with h | h
      · exact .inl (s.lamp.flashTimer_pattern.trans h)
      · right
        show s.lamp.flashTimer = _
        rw [h]
        rfl)
    (fun _ _ => .inr rfl) (fun {x} t h => by rw [State.flashTakes_eq]; exact h) (fun _ _ _ h => h) (fun _ _ _ => .inr rfl)

theorem Conditions.attn_iff (c : Conditions) :
    c.attn = true ↔ ∃ r ∈ c.records, c.mask.getLsbD r.cls.code = false := by
  simp only [Conditions.attn, Conditions.masked, List.any_eq_true, Bool.not_eq_true']

/-- A stored duration that is not shorter than half the period gives way to the longest that is (R26). -/
theorem lampDurationUsed_eq {rate duration : Nat} (hr : rate ≤ 3) (hd : duration ≤ 3) :
    lampDurationUsed rate duration = if rate = 3 then max 2 duration else if rate = 2 then max 1 duration else duration := by
  have table : ∀ r ≤ 3, ∀ d ≤ 3, lampDurationUsed r d = if r = 3 then max 2 d else if r = 2 then max 1 d else d := by decide
  exact table rate hr duration hd

theorem LampPattern.startsLit_iff (p : LampPattern) : p.startsLit = true ↔ p ≠ .released ∧ p ≠ .off := by
  cases p <;> simp [LampPattern.startsLit]

/-- The first pattern that holds in the list of R26. -/
theorem State.lampPattern_eq {s : State} {attn : Bool} (hr : s.session.lampRate ≤ 3) (hd : s.session.lampDuration ≤ 3) :
    s.lampPattern attn =
      if s.sysHold = true ∨ s.mode ≠ .commissioning then .released
      else if attn = true then .flash 3 2
      else if s.session.state = .closed then .steady
      else if s.session.state = .lapsed then .flash 0 0
      else if s.session.state = .dormant then .off
      else if s.seq.active ≠ none then .flash 2 1
      else .flash s.session.lampRate
        (if s.session.lampRate = 3 then max 2 s.session.lampDuration
          else if s.session.lampRate = 2 then max 1 s.session.lampDuration else s.session.lampDuration) := by
  rw [State.lampPattern, lampDurationUsed_eq hr hd]
  simp only [Bool.or_eq_true, decide_eq_true_eq]
  congr 2
  cases s.session.state <;> simp [State.jobInProgress, Option.isSome_iff_ne_none]

/-- A lamp whose pattern changes starts lit where the pattern lights it at all (R26). -/
theorem Lamp.choose_starts {l : Lamp} {p : LampPattern} (changed : l.pattern ≠ p ∨ l = { pattern := .released, lit := false }) :
    (l.choose p).lit = true ↔ p ≠ .released ∧ p ≠ .off := by
  unfold Lamp.choose
  split_ifs with same
  · rcases changed with h | h
    · exact absurd same h
    · subst h
      rw [← same]
      simp
  · exact p.startsLit_iff

/-- The idle timer (R21). -/
theorem State.timerNow_eq (s : State) :
    s.timerNow =
      if s.session.state ≠ .opened ∨ s.session.timeout = 0 then .stopped
      else if s.seq.active = none ∧ s.frame0.state ≠ .solving ∧ s.frame1.state ≠ .solving then .running s.session.timeout
      else .held := by
  have idle : s.partIdle = true ↔ s.seq.active = none ∧ s.frame0.state ≠ .solving ∧ s.frame1.state ≠ .solving := by
    simp only [State.partIdle, State.jobInProgress, State.anyFrame, Bool.and_eq_true, Bool.not_eq_true', Bool.or_eq_false_iff,
      Option.isSome_eq_false_iff, Option.isNone_iff_eq_none, decide_eq_false_iff_not, ne_eq]
  simp only [State.timerNow, idle, ite_or]

/-- Settles O3: every command ends by judging the lines of a state whose lamp has the pattern it had or is dark. -/
theorem linesFollowTheState : Obligations.LinesFollowTheState := by
  intro c s t h
  obtain ⟨u, lamp, rfl⟩ := (State.lampFrom_kept s.lamp.pattern).exec trivial h (.inl rfl)
  refine ⟨Conditions.attn_iff _, fun hr hd => ?_, fun changed => ?_, ?_⟩
  · exact (Lamp.choose_pattern _ _).trans (State.lampPattern_eq hr hd)
  · rw [State.settle_lamp, Lamp.choose_pattern] at changed ⊢
    exact Lamp.choose_starts (lamp.imp_left fun e same => changed (same ▸ e))
  · exact State.timerNow_eq u

/-! ## The clock and the timers (R22 to R26) -/

/-- The line clock, field by field (R24). -/
theorem Session.tick_eq (n : Session) :
    n.tick = { n with
      seconds := if n.seconds + 1 < 86400 then n.seconds + 1 else 0
      day := if n.seconds + 1 < 86400 then n.day else (n.day + 1) % 65536 } := by
  unfold Session.tick
  split_ifs <;> rfl

/-- The state whose session has just lapsed, before its condition is queued. -/
def State.lapsed (s : State) : State := { s with session := { s.session with state := .lapsed } }

/-- The lapse's park is queued at the tail (R22). -/
def State.lapsedParking (s : State) : State :=
  { s.lapsed.raise { cls := .sessionLapse } with
    seq := { s.seq with waiting := s.seq.waiting ++ [plainJob .park 0] } }

theorem State.lapse_saved {s : State} (saved : s.unsaved = false) : s.lapse = s.lapsed.raise { cls := .sessionLapse } := by
  rw [State.lapse, saved]
  rfl

theorem State.lapse_full {s : State} (unsaved : s.unsaved = true) (full : 4 ≤ s.seq.waiting.length) :
    s.lapse = s.lapsed.raise { cls := .sessionLapse, parkNotQueued := true } := by
  have : s.queueFull = true := decide_eq_true full
  simp only [State.lapse, unsaved, this, if_true]
  rfl

theorem State.lapse_parks {s : State} (unsaved : s.unsaved = true) (room : s.seq.waiting.length < 4) :
    s.lapse = s.lapsedParking.startDue := by
  have notFull : s.queueFull = false := decide_eq_false (by omega)
  have queued : (s.lapsed.raise { cls := .sessionLapse }).queueJob (plainJob .park 0) = s.lapsedParking := by
    rw [State.queueJob, State.raise_seq]
    rfl
  simp only [State.lapse, unsaved, notFull, if_true, Bool.false_eq_true, if_false]
  exact congrArg State.startDue queued

/-- Where no job is in progress and none waits, the park of the lapse starts at once (R22, R122). -/
theorem State.lapsedParking_startDue {s : State} {l : Layout} (idle : s.seq.active = none) (nothing : s.seq.waiting = [])
    (layout : s.layout = some l) :
    ∃ a, s.lapsedParking.startDue.seq.active = some a ∧ a.job = plainJob .park 0 ∧
      s.lapsedParking.startDue.seq.waiting = [] ∧ s.lapsedParking.startDue.grid = { s.grid with lock := some .park } := by
  have only : s.lapsedParking.startDue =
      State.startJob { s.lapsedParking with seq := { s.lapsedParking.seq with waiting := [] } } l (plainJob .park 0) :=
    State.startDue_only ((State.raise_layout _ _).trans layout) idle (by simp [State.lapsedParking, nothing])
  rw [only]
  refine ⟨_, rfl, rfl, rfl, ?_⟩
  exact congrArg (fun g : Grid => { g with lock := some .park }) (State.raise_grid s.lapsed _)

/-- Settles O26: the clock and the lamp's timer field by field; a running timer's expiry is the lapse, in its three cases. -/
theorem theClockAndTheTimersAct : Obligations.TheClockAndTheTimersAct := by
  intro s
  refine ⟨?clock, ?lamp, fun n running => ?lapse, fun still => ?still⟩
  case clock => exact congrArg (fun x => Host.Outcome.next (State.settle { s with session := x })) s.session.tick_eq
  case lamp => exact congrArg (fun x => Host.Outcome.next (State.settle { s with lamp := x })) s.lamp.flashTimer_eq
  case lapse =>
    have expires : exec .idleTimerExpiry s = .next s.lapse.settle := by simp only [exec, execIdleTimerExpiry, running]
    rw [expires]
    refine ⟨fun saved => ?_, fun unsaved full => ?_, fun unsaved room => ⟨?_, fun busy => ?_, fun idle nothing l layout => ?_⟩⟩
    · rw [State.lapse_saved saved]
      rfl
    · rw [State.lapse_full unsaved full]
      rfl
    · rw [State.lapse_parks unsaved room]
      rfl
    · obtain ⟨a, active⟩ := Option.ne_none_iff_exists'.mp busy
      exact State.startDue_busy active
    · exact State.lapsedParking_startDue idle nothing layout
  case still =>
    rcases still with h | h <;> simp only [exec, execIdleTimerExpiry, h]

end Sys2Proof.Machine
end

section
/-! A whole transaction on a free lane (01): how it begins, what its bytes do and how it ends; enables, drops, status,
identification and unrecognised commands; the statements O32, O33, O34 and O36. -/

namespace Sys2Proof.Machine

/-! ## A transaction begins on a free lane (R1, R8) -/

/-- The transaction of a command that begins now on a served lane. -/
def State.newTxn (s : State) (c : LaneCommand) (a : Nat) : Txn :=
  { ignored := false, command := c, addr := a, occupied := s.occupied, treatment := s.treatmentOf c a s.occupied,
    remapSlot := s.region.selected.map (fun r => r.slot), served := 0, data := [], firstFilled := none, overlayGen := none,
    pages := [] }

/-- A transaction in progress that has served these bytes, a sequencer read cut. -/
def State.under (s : State) (t : Txn) (served : List Byte) : State := { s.cutRead with upstream := some t, served := served }

/-- The shadow and the flash's latch as the part's WRITE DISABLE leaves them at a withheld command (R8). -/
def State.disabled (s : State) : State :=
  { s with shadow := false, flash := if s.occupied then s.flash else s.flash.setLatch false }

theorem State.laneIgnored_free {s : State} (free : s.laneFree = true) : s.laneIgnored = false := by
  obtain ⟨hold, rst, -, -⟩ := (State.laneFree_iff s).mp free
  rw [State.laneIgnored, hold, rst]
  rfl

theorem State.select_passing {s : State} {c : LaneCommand} {a : Nat} (free : s.laneFree = true)
    (passing : (s.treatmentOf c a s.occupied).withholds = false) : s.select c a = s.under (s.newTxn c a) [] := by
  have served := State.laneIgnored_free free
  simp only [State.select, served, passing, Bool.false_eq_true, if_false]
  rfl

theorem State.select_withheld {s : State} {c : LaneCommand} {a : Nat} (free : s.laneFree = true)
    (withheld : (s.treatmentOf c a s.occupied).withholds = true) :
    s.select c a = s.disabled.under (s.newTxn c a) [] := by
  have served := State.laneIgnored_free free
  simp only [State.select, served, withheld, Bool.false_eq_true, if_false, if_true]
  rfl

/-- A whole command on a free lane: it begins, its bytes pass, it ends. -/
theorem State.lane_free {s : State} (free : s.laneFree = true) (c : LaneCommand) (a : Nat) (bytes : State → State) :
    s.lane .whole c a bytes = (bytes (s.select c a)).deselect :=
  State.lane_whole ((State.laneFree_iff s).mp free).2.2.1 c a bytes

/-- A transaction that did not take the panel read hold ends (R1). -/
theorem State.deselect_served {s : State} {t : Txn} (carried : s.upstream = some t) (served : t.ignored = false)
    (unheld : s.grid.hold = false) : s.deselect = State.endTxn { s with upstream := none } t := by
  have released : State.releasePanel { s with upstream := none } = { s with upstream := none } := by
    simp only [State.releasePanel, unheld, Bool.false_eq_true, if_false]
  simp only [State.deselect, carried, served, Bool.false_eq_true, if_false, released]

theorem State.deselect_under {s : State} {t : Txn} {sv : List Byte} (free : s.laneFree = true) (served : t.ignored = false) :
    (s.under t sv).deselect = (s.passed sv).endTxn t :=
  State.deselect_served rfl served ((State.laneFree_iff s).mp free).2.2.2

theorem State.deselect_ignored {s : State} {t : Txn} (carried : s.upstream = some t) (ignored : t.ignored = true) :
    s.deselect = { s with upstream := none } := by
  simp only [State.deselect, carried, ignored, if_true]

/-- The part's WRITE DISABLE leaves the lane free. -/
theorem State.laneFree_disabled {s : State} (free : s.laneFree = true) : s.disabled.laneFree = true := free

/-! ## Bytes of one value each -/

/-- Bytes have gone out on U_SO for a transaction. -/
def State.sent (s : State) (t : Txn) (bs : List Byte) : State :=
  { s with served := s.served ++ bs, upstream := some { t with served := t.served + bs.length } }

theorem State.sent_nil {s : State} {t : Txn} (carried : s.upstream = some t) : s.sent t [] = s := by
  simp only [State.sent, List.append_nil, List.length_nil, Nat.add_zero, ← carried]

theorem State.emit_sent (s : State) (t : Txn) (b : Byte) (bs : List Byte) :
    (s.emit t b).sent { t with served := t.served + 1 } bs = s.sent t (b :: bs) := by
  simp only [State.sent, State.emit, List.append_assoc, List.singleton_append, List.length_cons, Nat.add_assoc, Nat.add_comm 1]

theorem State.under_sent (s : State) (t : Txn) (sv bs : List Byte) :
    (s.under t sv).sent t bs = s.under { t with served := t.served + bs.length } (sv ++ bs) := rfl

/-- The bytes counted from a number on: the first and the rest. -/
theorem map_counted (byte : Nat → Byte) (n k : Nat) :
    (List.range (n + 1)).map (fun i => byte (k + i)) = byte k :: (List.range n).map (fun i => byte (k + 1 + i)) := by
  rw [List.range_succ_eq_map, List.map_cons, List.map_map]
  simp only [Function.comp_def, Nat.succ_eq_add_one, Nat.add_zero, Nat.add_assoc, Nat.add_comm 1]

/-- A read that is ignored reads 0xFF (R1). -/
theorem State.serveBytes_ignored (n : Nat) {s : State} {t : Txn} (carried : s.upstream = some t) (ignored : t.ignored = true) :
    s.serveBytes n = s.sent t (List.replicate n 0xFF) := by
  induction n generalizing s t with
  | zero => exact (State.sent_nil carried).symm
  | succ n ih =>
    have one : s.serveByte = s.emit t 0xFF := by
      simp only [State.serveByte, carried, ignored, if_true]
      rfl
    rw [State.serveBytes, one, ih (t := { t with served := t.served + 1 }) rfl ignored, State.emit_sent]
    rfl

theorem State.statusBytes_ignored (n : Nat) {s : State} {t : Txn} (busyFor : Nat) (carried : s.upstream = some t)
    (ignored : t.ignored = true) : s.statusBytes n busyFor = s.sent t (List.replicate n 0xFF) := by
  induction n generalizing s t busyFor with
  | zero => exact (State.sent_nil carried).symm
  | succ n ih =>
    have one : s.statusByte (decide (0 < busyFor)) = s.emit t 0xFF := by
      simp only [State.statusByte, carried, ignored, if_true]
      rfl
    rw [State.statusBytes, one, ih (t := { t with served := t.served + 1 }) _ rfl ignored, State.emit_sent]
    rfl

/-- Inside an occupied period a status read answers not busy and the shadow (R11). -/
theorem State.statusBytes_answered (n : Nat) {s : State} {t : Txn} (busyFor : Nat) (carried : s.upstream = some t)
    (served : t.ignored = false) (answered : t.treatment ≠ .forwarded) :
    s.statusBytes n busyFor = s.sent t (List.replicate n (if s.shadow then 2 else 0)) := by
  induction n generalizing s t busyFor with
  | zero => exact (State.sent_nil carried).symm
  | succ n ih =>
    have one : s.statusByte (decide (0 < busyFor)) = s.emit t (if s.shadow then 2 else 0) := by
      simp only [State.statusByte, carried, served, answered, Bool.false_eq_true, if_false]
      cases s.shadow <;> rfl
    rw [State.statusBytes, one, ih (t := { t with served := t.served + 1 }) _ rfl served answered,
      State.emit_sent]
    rfl

theorem State.idBytes_ignored (n : Nat) {s : State} {t : Txn} (carried : s.upstream = some t)
    (filled : t.ignored = true ∨ t.treatment ≠ .forwarded) : s.idBytes n = s.sent t (List.replicate n 0xFF) := by
  induction n generalizing s t with
  | zero => exact (State.sent_nil carried).symm
  | succ n ih =>
    have one : s.idByte = s.emit t 0xFF := by
      rcases filled with ignored | answered
      · simp only [State.idByte, carried, ignored, if_true]
        rfl
      · simp only [State.idByte, carried, answered, if_false]
        split_ifs <;> rfl
    rw [State.idBytes, one, ih (t := { t with served := t.served + 1 }) rfl filled, State.emit_sent]
    rfl

/-- The identification is the flash's own (R2, log 9). -/
theorem State.idBytes_forwarded (n : Nat) {s : State} {t : Txn} (carried : s.upstream = some t) (served : t.ignored = false)
    (forwarded : t.treatment = .forwarded) :
    s.idBytes n = s.sent t ((List.range n).map fun i => Config.identificationByte (t.served + i)) := by
  induction n generalizing s t with
  | zero => exact (State.sent_nil carried).symm
  | succ n ih =>
    have one : s.idByte = s.emit t (Config.identificationByte t.served) := by
      simp only [State.idByte, carried, served, forwarded, Bool.false_eq_true, if_false, if_true]
    rw [State.idBytes, one, ih (t := { t with served := t.served + 1 }) rfl served forwarded, State.emit_sent, map_counted]

/-! ## Unrecognised commands (R4) -/

/-- Data bytes have passed, each with a byte on U_SO. -/
def State.exchanged (s : State) (t : Txn) (data bs : List Byte) : State :=
  { s with served := s.served ++ bs, upstream := some { t with served := t.served + bs.length, data := t.data ++ data } }

theorem State.exchanged_nil {s : State} {t : Txn} (carried : s.upstream = some t) : s.exchanged t [] [] = s := by
  simp only [State.exchanged, List.append_nil, List.length_nil, Nat.add_zero, ← carried]

theorem State.emit_exchanged (s : State) (t : Txn) (d b : Byte) (data bs : List Byte) :
    (s.emit { t with data := t.data ++ [d] } b).exchanged { t with data := t.data ++ [d], served := t.served + 1 } data bs =
      s.exchanged t (d :: data) (b :: bs) := by
  simp only [State.exchanged, State.emit, List.append_assoc, List.singleton_append, List.length_cons, Nat.add_assoc,
    Nat.add_comm 1]

/-- An unrecognised command that the flash does not answer reads 0xFF (R1, R4). -/
theorem State.unknownBytes_filled (data : List Byte) {s : State} {t : Txn} (carried : s.upstream = some t)
    (filled : t.ignored = true ∨ t.treatment ≠ .forwarded) :
    s.unknownBytes data = s.exchanged t data (List.replicate data.length 0xFF) := by
  induction data generalizing s t with
  | nil => exact (State.exchanged_nil carried).symm
  | cons d rest ih =>
    have one : s.unknownByte d = s.emit { t with data := t.data ++ [d] } 0xFF := by
      simp only [State.unknownByte, carried]
      split
      · rename_i served forwarded _
        rcases filled with ignored | answered
        · exact absurd (ignored.symm.trans served) nofun
        · exact absurd forwarded answered
      · rfl
    rw [State.unknownBytes, one, ih (t := { t with data := t.data ++ [d], served := t.served + 1 }) rfl filled,
      State.emit_exchanged]
    rfl

/-- One the flash answers: the answers are free values (log 10). -/
theorem State.unknownBytes_answered (data : List Byte) {s : State} {t : Txn} {c : Byte} (carried : s.upstream = some t)
    (served : t.ignored = false) (forwarded : t.treatment = .forwarded) (command : t.command = .unrecognised c) :
    s.unknownBytes data =
      s.exchanged t data ((List.range data.length).map fun i => Config.unrecognisedAnswer s.draws c (t.served + i)) := by
  induction data generalizing s t with
  | nil => exact (State.exchanged_nil carried).symm
  | cons d rest ih =>
    have one : s.unknownByte d =
        s.emit { t with data := t.data ++ [d] } (Config.unrecognisedAnswer s.draws c t.served) := by
      simp only [State.unknownByte, carried, served, forwarded, command]
    rw [State.unknownBytes, one, ih (t := { t with data := t.data ++ [d], served := t.served + 1 }) rfl served forwarded command,
      State.emit_exchanged, List.length_cons, map_counted]
    rfl

/-! ## A transaction ends: the commands that reach no byte by an address -/

theorem State.treatmentOf_enable (s : State) (occ : Bool) {c : LaneCommand} (hc : c = .writeEnable ∨ c = .writeDisable ∨
    c = .readStatus ∨ c = .readId) : s.treatmentOf c 0 occ = if occ then .answered else .forwarded := by
  rcases hc with rfl | rfl | rfl | rfl <;> rfl

/-- A WRITE ENABLE or WRITE DISABLE that has ended on a free lane (R9, R11). -/
theorem State.lane_enable {s : State} (free : s.laneFree = true) :
    s.lane .whole .writeEnable 0 id = { s.passed [] with
      shadow := true, flash := if s.occupied then s.flash else s.flash.setLatch true } ∧
    s.lane .whole .writeDisable 0 id = { s.passed [] with
      shadow := false, flash := if s.occupied then s.flash else s.flash.setLatch false } := by
  have enable := State.treatmentOf_enable s s.occupied (c := .writeEnable) (by simp)
  have disable := State.treatmentOf_enable s s.occupied (c := .writeDisable) (by simp)
  constructor
  · rw [State.lane_free free, State.select_passing free (by rw [enable]; split_ifs <;> rfl), id, State.deselect_under free rfl]
    simp only [State.newTxn, enable]
    cases s.occupied <;> rfl
  · rw [State.lane_free free, State.select_passing free (by rw [disable]; split_ifs <;> rfl), id, State.deselect_under free rfl]
    simp only [State.newTxn, disable]
    cases s.occupied <;> rfl

/-- A transaction dropped before its decision has cut a sequencer read at most (log 22). -/
theorem State.lane_dropped {s : State} (free : s.laneFree = true) : s.lane .whole .incomplete 0 id = s.passed [] := by
  rw [State.lane_free free, State.select_passing free rfl, id, State.deselect_under free rfl]
  rfl

/-! ## Under SYS_HOLD or SYS_RST (R1) -/

theorem State.select_ignored {s : State} (c : LaneCommand) (a : Nat) (ignored : s.sysHold = true ∨ s.sysRst = true) :
    s.select c a = { s with upstream := some { s.newTxn c a with ignored := true }, served := [] } := by
  have h : s.laneIgnored = true := by
    rw [State.laneIgnored, Bool.or_eq_true]
    exact ignored
  simp only [State.select, h, if_true]
  rfl

/-- A transaction ignored to its end leaves what was served, and nothing else. -/
theorem State.lane_ignored {s : State} {c : LaneCommand} {a : Nat} {bytes : State → State} {bs : List Byte} {t : Txn}
    (idle : s.upstream = none) (still : t.ignored = true)
    (passes : bytes (s.select c a) = { s with upstream := some t, served := bs }) :
    s.lane .whole c a bytes = { s with served := bs } := by
  rw [State.lane_whole idle, passes, State.deselect_ignored (t := t) rfl still]
  simp only [← idle]

/-- A byte that names no command of R2's table is the unrecognised command of that byte (R4). -/
theorem commandOf_unrecognised {b : Byte} (h : recognisedBytes.contains b = false) : commandOf b = .unrecognised b := by
  have absent : commandTable.find? (fun r => r.1 == b) = none := by
    rw [List.find?_eq_none]
    intro r hr same
    rw [Bool.eq_false_iff, ne_eq, List.contains_iff_mem] at h
    exact h (List.mem_map.mpr ⟨r, hr, beq_iff_eq.mp same⟩)
  rw [commandOf, absent]

/-- Settles O32: each command's transaction on a free lane, and on one that is held or reset. -/
theorem enablesAndDroppedTransactions : Obligations.EnablesAndDroppedTransactions := by
  refine ⟨fun s free => ⟨?enable, ?disable, ?dropped⟩, fun addr n b code data s idle ignored => ⟨?reads, ?others, fun unknown => ?unknown⟩⟩
  case enable => exact congrArg (fun x : State => Host.Outcome.next x.settle) (State.lane_enable free).1
  case disable => exact congrArg (fun x : State => Host.Outcome.next x.settle) (State.lane_enable free).2
  case dropped => exact congrArg (fun x : State => Host.Outcome.next x.settle) (State.lane_dropped free)
  all_goals
    have ends : ∀ {c : LaneCommand} {a : Nat} {bytes : State → State} {bs : List Byte} {t : Txn}, t.ignored = true →
        bytes { s with upstream := some { s.newTxn c a with ignored := true }, served := [] } =
          { s with upstream := some t, served := bs } →
        (s.lane .whole c a bytes).settle = State.settle { s with served := bs } := fun still passes =>
      congrArg State.settle (State.lane_ignored idle still (by rw [State.select_ignored _ _ ignored, passes]))
  case reads =>
    intro c hc
    simp only [List.mem_cons, List.not_mem_nil, or_false] at hc
    rcases hc with rfl | rfl | rfl | rfl
    · exact congrArg Host.Outcome.next (ends rfl (State.serveBytes_ignored n rfl rfl))
    · exact congrArg Host.Outcome.next (ends rfl (State.serveBytes_ignored n rfl rfl))
    · exact congrArg Host.Outcome.next (ends rfl (State.statusBytes_ignored n b rfl rfl))
    · exact congrArg Host.Outcome.next (ends rfl (State.idBytes_ignored n rfl (.inl rfl)))
  case others =>
    intro c hc
    simp only [List.mem_cons, List.not_mem_nil, or_false] at hc
    rcases hc with rfl | rfl | rfl | rfl | rfl | rfl | rfl <;> exact congrArg Host.Outcome.next (ends rfl rfl)
  case unknown =>
    have reads : exec (.unrecognisedCommand .whole code data) s =
        .next (s.lane .whole (.unrecognised code) 0 (fun x => x.unknownBytes data)).settle := by
      simp only [exec, execUnrecognisedCommand, commandOf_unrecognised unknown]
    rw [reads]
    exact congrArg Host.Outcome.next (ends rfl (State.unknownBytes_filled data rfl (.inl rfl)))

/-! ## READ STATUS and READ ID (R2, R3, R11) -/

/-- The two bits of a status byte that the flash's state gives (R3). -/
theorem statusBits (busy latch : Bool) (high : Nat) :
    let b : Byte := BitVec.ofNat 8 ((if busy then 1 else 0) + (if latch then 2 else 0) + 4 * high)
    b.getLsbD 1 = latch ∧ b.getLsbD 0 = busy := by
  intro b
  simp only [b, BitVec.getLsbD_ofNat, Nat.testBit_eq_decide_div_mod_eq]
  cases busy <;> cases latch <;> simp <;> omega

/-- What the flash answers to a status read: its latch and its busy state, in the bytes it is still busy for (R3, log 9). -/
theorem State.statusBytes_forwarded (n : Nat) {s : State} {t : Txn} (busyFor : Nat) (carried : s.upstream = some t)
    (served : t.ignored = false) (forwarded : t.treatment = .forwarded) :
    ∃ bs op draws, s.statusBytes n busyFor =
        State.sent { s with flash := { s.flash with op := op }, draws := draws } t bs ∧ bs.length = n ∧
      ∀ i, i < n → ((bs.getD i 0).getLsbD 1 = s.flash.latch) ∧
        ((bs.getD i 0).getLsbD 0 = (decide (i < busyFor) && s.flash.op.isSome)) := by
  induction n generalizing s t busyFor with
  | zero => exact ⟨[], s.flash.op, s.draws, (State.sent_nil carried).symm, rfl, fun i hi => absurd hi (Nat.not_lt_zero i)⟩
  | succ n ih =>
    obtain ⟨still, hs⟩ : ∃ still, still = (decide (0 < busyFor) && s.flash.op.isSome) := ⟨_, rfl⟩
    obtain ⟨b, hb⟩ : ∃ b : Byte, b = BitVec.ofNat 8 ((if still then 1 else 0) + (if s.flash.latch then 2 else 0) +
      4 * (Config.statusHighBits s.draws).toNat) := ⟨_, rfl⟩
    have one : s.statusByte (decide (0 < busyFor)) = State.emit { s with
        flash := { s.flash with op := if still then s.flash.op else none }, draws := s.draws + 1 } t b := by
      rw [hb, hs]
      simp only [State.statusByte, carried, served, forwarded, Bool.false_eq_true, if_false, if_true]
    obtain ⟨bs, op, draws, run, length, bits⟩ := ih (s := s.statusByte (decide (0 < busyFor)))
      (t := { t with served := t.served + 1 }) (busyFor - 1) (by rw [one]; rfl) served forwarded
    refine ⟨b :: bs, op, draws, ?_, by rw [List.length_cons, length], fun i hi => ?_⟩
    · rw [State.statusBytes, run, one]
      exact State.emit_sent { s with flash := { s.flash with op := op }, draws := draws } t b bs
    · cases i with
      | zero =>
        obtain ⟨latch, busy⟩ := statusBits still s.flash.latch (Config.statusHighBits s.draws).toNat
        rw [List.getD_cons_zero, hb, ← hs]
        exact ⟨latch, busy⟩
      | succ i =>
        obtain ⟨latch, busy⟩ := bits i (by omega)
        rw [one] at latch busy
        rw [List.getD_cons_succ]
        refine ⟨latch, busy.trans ?_⟩
        have later : decide (i < busyFor - 1) = decide (i + 1 < busyFor) := decide_eq_decide.mpr (by omega)
        show (decide (i < busyFor - 1) && (if still = true then s.flash.op else none).isSome) = _
        rw [later, hs]
        by_cases run : i + 1 < busyFor
        · have first : 0 < busyFor := by omega
          cases op : s.flash.op <;> simp [run, first]
        · simp [run]

/-- What the end of a READ STATUS or a READ ID changes (R11). -/
theorem State.endTxn_readStatus {s : State} {t : Txn} (command : t.command = .readStatus) : s.endTxn t = s := by
  rw [State.endTxn, command]

theorem State.endTxn_readId {s : State} {t : Txn} (command : t.command = .readId) :
    s.endTxn t = if t.treatment = .forwarded then s else s.raise { cls := .collision, command := some 0x9F } := by
  unfold State.endTxn
  rw [command]
  cases t.treatment <;> rfl

/-- A state whose queue, session and mode are another's takes a report as that one does (R178, R179). -/
theorem State.raise_conds_congr {s u : State} (conds : u.conds = s.conds) (session : u.session = s.session) (mode : u.mode = s.mode)
    (r : Report) : (u.raise r).conds = (s.raise r).conds := by
  simp only [State.raise, State.newRecord, conds, session, mode]
  split_ifs <;> rfl

/-- Settles O33: which answers come from the flash is the treatment's; each byte is followed. -/
theorem statusAndIdentificationReads : Obligations.StatusAndIdentificationReads := by
  have begins : ∀ {s : State} {c : LaneCommand}, (c = .readStatus ∨ c = .readId) → s.laneFree = true →
      (s.newTxn c 0).treatment = (if s.occupied then .answered else .forwarded) ∧ s.select c 0 = s.under (s.newTxn c 0) [] := by
    intro s c hc free
    have treated := s.treatmentOf_enable s.occupied (.inr (.inr hc))
    exact ⟨treated, State.select_passing free (by rw [treated]; split_ifs <;> rfl)⟩
  refine ⟨fun n b s free occupied => ⟨?statusInside, ?idInside⟩, fun n b s free notOccupied => ⟨?statusOutside, ?idOutside⟩⟩
  case statusInside =>
    obtain ⟨treated, selects⟩ := begins (.inl rfl) free
    rw [occupied] at treated
    have ends : s.lane .whole .readStatus 0 (fun x => x.statusBytes n b) =
        s.passed (List.replicate n (if s.shadow then 2 else 0)) := by
      rw [State.lane_free free, selects, State.statusBytes_answered n b rfl rfl (by rw [treated]; nofun),
        State.under_sent, State.deselect_under free rfl, State.endTxn_readStatus rfl]
      rfl
    exact congrArg (fun x : State => Host.Outcome.next x.settle) ends
  case idInside =>
    obtain ⟨treated, selects⟩ := begins (.inr rfl) free
    rw [occupied] at treated
    have ends : s.lane .whole .readId 0 (fun x => x.idBytes n) =
        (s.passed (List.replicate n erasedByte)).raise { cls := .collision, command := some 0x9F } := by
      rw [State.lane_free free, selects, State.idBytes_ignored n rfl (.inr (by rw [treated]; nofun)),
        State.under_sent, State.deselect_under free rfl, State.endTxn_readId rfl, if_neg]
      · rfl
      · show (s.newTxn .readId 0).treatment ≠ _
        rw [treated]
        nofun
    refine ⟨_, congrArg (fun x : State => Host.Outcome.next x.settle) ends, ?_, ?_, ?_, ?_⟩
    · rw [State.settle_served, State.raise_served]
      rfl
    · rw [State.settle_conds]
      exact State.raise_conds_congr (s := s) (u := s.passed (List.replicate n erasedByte)) rfl rfl rfl _
    · rw [State.settle_flash, State.raise_flash]
      rfl
    · rw [State.settle_counters, State.raise_counters]
      rfl
  case statusOutside =>
    obtain ⟨treated, selects⟩ := begins (.inl rfl) free
    rw [notOccupied] at treated
    obtain ⟨bs, op, draws, run, length, bits⟩ := State.statusBytes_forwarded n (s := s.under (s.newTxn .readStatus 0) []) b rfl
      rfl treated
    have ends : s.lane .whole .readStatus 0 (fun x => x.statusBytes n b) =
        { s.passed bs with flash := { s.flash with op := op }, draws := draws } := by
      rw [State.lane_free free, selects, run]
      exact (State.deselect_under (s := { s with flash := { s.flash with op := op }, draws := draws })
        (t := { s.newTxn .readStatus 0 with served := 0 + bs.length }) (sv := [] ++ bs) free rfl).trans
        (State.endTxn_readStatus rfl)
    exact ⟨_, congrArg (fun x : State => Host.Outcome.next x.settle) ends, length, bits, rfl, rfl, rfl, rfl, rfl⟩
  case idOutside =>
    obtain ⟨treated, selects⟩ := begins (.inr rfl) free
    rw [notOccupied] at treated
    have ends : s.lane .whole .readId 0 (fun x => x.idBytes n) =
        s.passed ((List.range n).map Config.identificationByte) := by
      rw [State.lane_free free, selects, State.idBytes_forwarded n rfl rfl treated, State.under_sent,
        State.deselect_under free rfl, State.endTxn_readId rfl]
      refine (if_pos treated).trans ?_
      simp only [State.newTxn, Nat.zero_add, List.nil_append]
    exact ⟨_, congrArg (fun x : State => Host.Outcome.next x.settle) ends, rfl, rfl, rfl, rfl, rfl⟩

/-! ## The command byte (R1, R2, R4) -/

/-- A command with an address is dropped where its address is not complete (R1). -/
theorem transactionOf_incomplete {c : Byte} (hc : c ∈ ([0x03, 0x0B, 0x02, 0x20, 0xD8] : List Byte)) {sent : List Byte}
    (short : sent.length < 3) (n : Nat) : transactionOf (c :: sent) n = .transactionDropped .whole := by
  simp only [List.mem_cons, List.not_mem_nil, or_false] at hc
  match sent, short with
  | [], _ => rcases hc with rfl | rfl | rfl | rfl | rfl <;> rfl
  | [_], _ => rcases hc with rfl | rfl | rfl | rfl | rfl <;> rfl
  | [_, _], _ => rcases hc with rfl | rfl | rfl | rfl | rfl <;> rfl

theorem exec_unrecognised {b : Byte} (unknown : recognisedBytes.contains b = false) (sp : Span) (data : List Byte) (s : State) :
    exec (.unrecognisedCommand sp b data) s =
      .next (s.lane sp (.unrecognised b) 0 (fun x => x.unknownBytes data)).settle := by
  simp only [exec, execUnrecognisedCommand, commandOf_unrecognised unknown]

/-- A byte of R2's table picks its command, which is no unrecognised one. -/
theorem commandOf_recognised {b : Byte} (known : recognisedBytes.contains b = true) (c : Byte) : commandOf b ≠ .unrecognised c := by
  have all : ∀ b ∈ recognisedBytes, ∃ r ∈ commandTable, commandOf b = r.2 := by decide
  obtain ⟨r, hr, e⟩ := all b (List.contains_iff_mem.mp known)
  rw [e]
  simp only [commandTable, List.mem_cons, List.not_mem_nil, or_false] at hr
  rcases hr with rfl | rfl | rfl | rfl | rfl | rfl | rfl | rfl | rfl | rfl <;> nofun

/-- A byte of R2's table changes nothing as an unrecognised command (log 2). -/
theorem exec_recognised {b : Byte} (known : recognisedBytes.contains b = true) (sp : Span) (data : List Byte) (s : State) :
    exec (.unrecognisedCommand sp b data) s = .next s.settle := by
  unfold exec execUnrecognisedCommand
  dsimp only
  split
  · exact absurd ‹_› (commandOf_recognised known _)
  · rfl

theorem State.endTxn_unrecognised {s : State} {t : Txn} {b : Byte} (command : t.command = .unrecognised b) :
    s.endTxn t = if t.treatment = .forwarded then s.flashTakes t else s.raise { cls := .laneRefused, command := some b } := by
  unfold State.endTxn
  rw [command]
  cases t.treatment <;> rfl

theorem State.under_exchanged (s : State) (t : Txn) (sv data bs : List Byte) :
    (s.under t sv).exchanged t data bs =
      s.under { t with served := t.served + bs.length, data := t.data ++ data } (sv ++ bs) := rfl

/-- Settles O34: the table picks the command; an unrecognised one is refused by the part, or answered by the flash in BYPASS. -/
theorem unrecognisedCommandsAreRefused : Obligations.UnrecognisedCommandsAreRefused := by
  refine ⟨fun hi mid lo dummy d n => ⟨rfl, rfl, rfl, rfl, rfl, rfl, rfl, rfl, rfl, rfl, rfl, rfl,
    fun c hc e short => transactionOf_incomplete hc short n⟩, rfl, fun b data s unknown => ⟨fun n => ?picked, fun free mode => ?refused,
    fun free mode => ?forwarded⟩, fun sp b data s known => ?known⟩
  case picked => simp only [transactionOf, commandOf_unrecognised unknown]
  case refused =>
    have treated : s.treatmentOf (.unrecognised b) 0 s.occupied = .answered := if_neg mode
    have answered : (s.newTxn (.unrecognised b) 0).treatment ≠ .forwarded := by
      rw [State.newTxn, treated]
      nofun
    rw [exec_unrecognised unknown, State.lane_free free, State.select_passing free (by rw [treated]; rfl),
      State.unknownBytes_filled data rfl (.inr answered), State.under_exchanged, State.deselect_under free rfl,
      State.endTxn_unrecognised rfl]
    exact congrArg (fun x : State => Host.Outcome.next x.settle) (if_neg answered)
  case forwarded =>
    have treated : s.treatmentOf (.unrecognised b) 0 s.occupied = .forwarded := if_pos mode
    rw [exec_unrecognised unknown, State.lane_free free, State.select_passing free (by rw [treated]; rfl),
      State.unknownBytes_answered data rfl rfl treated rfl, State.under_exchanged, State.deselect_under free rfl,
      State.endTxn_unrecognised rfl]
    refine congrArg (fun x : State => Host.Outcome.next x.settle) ((if_pos treated).trans ?_)
    simp only [State.flashTakes, State.newTxn, Nat.zero_add, List.nil_append]
    rfl
  case known => exact exec_recognised known sp data s

/-! ## A transaction in parts (R1, log 1) -/

/-- Lines that follow the state still do once what they are judged by is the same (R21, R26, R182). -/
theorem State.settled_congr {s u : State} (settled : s.settle = s) (attn : u.attn = s.attn) (lamp : u.lamp = s.lamp)
    (session : u.session = s.session) (conds : u.conds = s.conds) (mode : u.mode = s.mode) (hold : u.sysHold = s.sysHold)
    (busy : u.jobInProgress = s.jobInProgress) (frame0 : u.frame0 = s.frame0) (frame1 : u.frame1 = s.frame1) : u.settle = u := by
  have pattern : ∀ b, u.lampPattern b = s.lampPattern b := fun b => by
    simp only [State.lampPattern, session, mode, hold, busy]
  have timer : u.timerNow = s.timerNow := by
    rw [State.timerNow, State.timerNow, State.partIdle, State.partIdle, State.anyFrame, State.anyFrame, session, busy, frame0,
      frame1]
  have attn' : u.conds.attn = u.attn := by
    rw [conds, attn]
    exact congrArg State.attn settled
  have lamp' : u.lamp.choose (u.lampPattern u.attn) = u.lamp := by
    rw [pattern, ← attn', conds, lamp]
    exact congrArg State.lamp settled
  have session' : { u.session with timer := u.timerNow } = u.session := by
    rw [timer, session]
    exact congrArg State.session settled
  rw [State.settle, attn', lamp', session']

theorem State.passesTo_settled {s u : State} (h : s.passesTo u) (settled : s.settle = s) : u.settle = u := by
  obtain rfl | ⟨_, _, _, _, _, _, _, _, _, rfl⟩ := h
  · exact settled
  · exact State.settled_congr settled rfl rfl rfl rfl rfl rfl rfl rfl rfl

theorem State.select_settled {s : State} (c : LaneCommand) (a : Nat) (settled : s.settle = s) : (s.select c a).settle = s.select c a := by
  have busy : s.cutRead.jobInProgress = s.jobInProgress := by
    rw [State.jobInProgress, State.cutRead, Option.isSome_map]
    rfl
  obtain ⟨t, -, ⟨-, e⟩ | ⟨-, _, _, e⟩⟩ := s.select_cases c a <;> rw [e]
  · exact State.settled_congr settled rfl rfl rfl rfl rfl rfl rfl rfl rfl
  · exact State.settled_congr settled rfl rfl rfl rfl rfl rfl busy rfl rfl

theorem State.select_carries (s : State) (c : LaneCommand) (a : Nat) : (s.select c a).carries c = true := by
  obtain ⟨t, rfl, ⟨-, e⟩ | ⟨-, _, _, e⟩⟩ := s.select_cases c a <;> rw [e] <;> exact decide_eq_true rfl

theorem State.passesTo_carries {s u : State} {c : LaneCommand} (h : s.passesTo u) (carries : s.carries c = true) :
    u.carries c = true := by
  obtain rfl | ⟨t, t', _, _, _, _, ht, ⟨-, command, -⟩, -, rfl⟩ := h
  · exact carries
  · simp only [State.carries, ht, decide_eq_true_eq] at carries
    exact decide_eq_true (command.trans carries)

section
variable {s : State} {c : LaneCommand} {a : Nat} {f g h : State → State}

/-- What the first part of a transaction leaves: lines that follow the state, and the command in progress. -/
theorem State.lane_opens (idle : s.upstream = none) (settled : s.settle = s) (hf : ∀ x, State.passesTo x (f x)) :
    s.lane .opens c a f = f (s.select c a) ∧ (s.lane .opens c a f).settle = s.lane .opens c a f ∧
      (s.lane .opens c a f).carries c = true := by
  have opened : s.lane .opens c a f = f (s.select c a) := by simp [State.lane, idle]
  rw [opened]
  exact ⟨rfl, State.passesTo_settled (hf _) (State.select_settled c a settled),
    State.passesTo_carries (hf _) (s.select_carries c a)⟩

theorem State.lane_more (carries : s.carries c = true) (settled : s.settle = s) (hf : ∀ x, State.passesTo x (f x)) :
    s.lane .more c a f = f s ∧ (s.lane .more c a f).settle = s.lane .more c a f ∧ (s.lane .more c a f).carries c = true := by
  have passed : s.lane .more c a f = f s := by simp [State.lane, carries]
  rw [passed]
  exact ⟨rfl, State.passesTo_settled (hf _) settled, State.passesTo_carries (hf _) carries⟩

theorem State.lane_closes (carries : s.carries c = true) : s.lane .closes c a f = (f s).deselect := by
  simp [State.lane, carries]

/-- Two parts of a transaction do what the whole does. -/
theorem State.lane_twoParts (idle : s.upstream = none) (settled : s.settle = s) (hf : ∀ x, State.passesTo x (f x))
    (together : ∀ x, h x = g (f x)) :
    (s.lane .opens c a f).settle.lane .closes c a g = s.lane .whole c a h := by
  obtain ⟨opened, still, carries⟩ := State.lane_opens (c := c) (a := a) idle settled hf
  rw [still, State.lane_closes carries, opened, State.lane_whole idle, together]

/-- And so do three. -/
theorem State.lane_threeParts {k : State → State} (idle : s.upstream = none) (settled : s.settle = s)
    (hf : ∀ x, State.passesTo x (f x)) (hg : ∀ x, State.passesTo x (g x)) (together : ∀ x, k x = h (g (f x))) :
    ((s.lane .opens c a f).settle.lane .more c a g).settle.lane .closes c a h = s.lane .whole c a k := by
  obtain ⟨opened, still, carries⟩ := State.lane_opens (c := c) (a := a) idle settled hf
  obtain ⟨passed, still', carries'⟩ := State.lane_more (a := a) carries still hg
  rw [still, still', State.lane_closes carries', passed, opened, State.lane_whole idle, together]

end

theorem State.serveBytes_add (n m : Nat) (s : State) : s.serveBytes (n + m) = (s.serveBytes n).serveBytes m := by
  induction n generalizing s with
  | zero => rw [Nat.zero_add]; rfl
  | succ n ih => rw [Nat.succ_add]; exact ih _

theorem State.statusBytes_add (n m : Nat) (s : State) (b : Nat) :
    s.statusBytes (n + m) b = (s.statusBytes n b).statusBytes m (b - n) := by
  induction n generalizing s b with
  | zero => rw [Nat.zero_add]; rfl
  | succ n ih =>
    rw [Nat.succ_add, State.statusBytes, ih, Nat.sub_sub, Nat.add_comm 1]
    rfl

theorem State.idBytes_add (n m : Nat) (s : State) : s.idBytes (n + m) = (s.idBytes n).idBytes m := by
  induction n generalizing s with
  | zero => rw [Nat.zero_add]; rfl
  | succ n ih => rw [Nat.succ_add]; exact ih _

theorem State.unknownBytes_append (d e : List Byte) (s : State) : s.unknownBytes (d ++ e) = (s.unknownBytes d).unknownBytes e := by
  induction d generalizing s with
  | nil => rfl
  | cons b t ih => exact ih _

theorem State.takeData_append (d e : List Byte) (s : State) : s.takeData (d ++ e) = (s.takeData d).takeData e := by
  cases ht : s.upstream <;> simp only [State.takeData, ht, List.append_assoc]

/-- A command does to every state what a part of a lane transaction does. -/
def doesOnLane (i : Instr) (sp : Span) (c : LaneCommand) (a : Nat) (bytes : State → State) : Prop :=
  ∀ x : State, exec i x = .next (x.lane sp c a bytes).settle

/-- Settles O36: each command's bytes pass the same in parts, and between the parts the lines stand. -/
theorem splitTransactionsDoWhatWholeOnesDo : Obligations.SplitTransactionsDoWhatWholeOnesDo := by
  intro s idle settled a n k m b d e f c
  have same : ∀ x, State.passesTo x (id x) := fun x => .inl rfl
  have served : ∀ n (x : State), x.passesTo (x.serveBytes n) := State.passesTo_serveBytes
  have status : ∀ b n (x : State), x.passesTo (x.statusBytes n b) := fun b n x => State.passesTo_statusBytes n x b
  have ident : ∀ n (x : State), x.passesTo (x.idBytes n) := State.passesTo_idBytes
  have taken : ∀ d (x : State), x.passesTo (x.takeData d) := fun d x => x.passesTo_takeData d
  have unknown : ∀ d (x : State), x.passesTo (x.unknownBytes d) := State.passesTo_unknownBytes
  refine ⟨fun p hp => ?two, fun p hp => ?three⟩
  case two =>
    have two : ∀ {c : LaneCommand} {a : Nat} (f g h : State → State), doesOnLane p.1 .opens c a f → doesOnLane p.2.1 .closes c a g →
        doesOnLane p.2.2 .whole c a h → (∀ x, State.passesTo x (f x)) → (∀ x, h x = g (f x)) →
        ∃ u t, exec p.1 s = .next u ∧ exec p.2.1 u = .next t ∧ exec p.2.2 s = .next t := by
      intro c a f g h opens closes whole hf together
      refine ⟨_, _, opens s, closes _, (whole s).trans ?_⟩
      rw [State.lane_twoParts idle settled hf together]
    simp only [List.mem_cons, List.not_mem_nil, or_false] at hp
    rcases hp with rfl | rfl | rfl | rfl | rfl | rfl | rfl | rfl | rfl | rfl | rfl | rfl
    · exact two _ _ _ (fun _ => rfl) (fun _ => rfl) (fun _ => rfl) (served n) (State.serveBytes_add n m)
    · exact two _ _ _ (fun _ => rfl) (fun _ => rfl) (fun _ => rfl) (served n) (State.serveBytes_add n m)
    · exact two _ _ _ (fun _ => rfl) (fun _ => rfl) (fun _ => rfl) (taken d) (State.takeData_append d e)
    · exact two _ _ _ (fun _ => rfl) (fun _ => rfl) (fun _ => rfl) same (fun _ => rfl)
    · exact two _ _ _ (fun _ => rfl) (fun _ => rfl) (fun _ => rfl) same (fun _ => rfl)
    · exact two _ _ _ (fun _ => rfl) (fun _ => rfl) (fun _ => rfl) same (fun _ => rfl)
    · exact two _ _ _ (fun _ => rfl) (fun _ => rfl) (fun _ => rfl) same (fun _ => rfl)
    · exact two _ _ _ (fun _ => rfl) (fun _ => rfl) (fun _ => rfl) same (fun _ => rfl)
    · exact two _ _ _ (fun _ => rfl) (fun _ => rfl) (fun _ => rfl) (status b n) (fun x => State.statusBytes_add n m x b)
    · exact two _ _ _ (fun _ => rfl) (fun _ => rfl) (fun _ => rfl) (ident n) (State.idBytes_add n m)
    · cases known : recognisedBytes.contains c with
      | true =>
        have ignores := fun sp data => exec_recognised known sp data s
        exact ⟨s, s.settle, by rw [ignores, settled], ignores _ _, ignores _ _⟩
      | false =>
        exact two _ _ _ (exec_unrecognised known _ _) (exec_unrecognised known _ _) (exec_unrecognised known _ _) (unknown d)
          (State.unknownBytes_append d e)
    · exact two _ _ _ (fun _ => rfl) (fun _ => rfl) (fun _ => rfl) same (fun _ => rfl)
  case three =>
    have three : ∀ {c : LaneCommand} {a : Nat} (f g h k : State → State), doesOnLane p.1 .opens c a f →
        doesOnLane p.2.1 .more c a g → doesOnLane p.2.2.1 .closes c a h → doesOnLane p.2.2.2 .whole c a k →
        (∀ x, State.passesTo x (f x)) → (∀ x, State.passesTo x (g x)) → (∀ x, k x = h (g (f x))) →
        ∃ u v t, exec p.1 s = .next u ∧ exec p.2.1 u = .next v ∧ exec p.2.2.1 v = .next t ∧ exec p.2.2.2 s = .next t := by
      intro c a f g h k opens more closes whole hf hg together
      refine ⟨_, _, _, opens s, more _, closes _, (whole s).trans ?_⟩
      rw [State.lane_threeParts idle settled hf hg together]
    simp only [List.mem_cons, List.not_mem_nil, or_false] at hp
    rcases hp with rfl | rfl | rfl | rfl | rfl | rfl | rfl | rfl | rfl | rfl | rfl | rfl
    · exact three _ _ _ _ (fun _ => rfl) (fun _ => rfl) (fun _ => rfl) (fun _ => rfl)
        (served n) (served k) (fun x => by rw [State.serveBytes_add, State.serveBytes_add])
    · exact three _ _ _ _ (fun _ => rfl) (fun _ => rfl) (fun _ => rfl) (fun _ => rfl)
        (served n) (served k) (fun x => by rw [State.serveBytes_add, State.serveBytes_add])
    · exact three _ _ _ _ (fun _ => rfl) (fun _ => rfl) (fun _ => rfl) (fun _ => rfl)
        (taken d) (taken e) (fun x => by rw [State.takeData_append, State.takeData_append])
    · exact three _ _ _ _ (fun _ => rfl) (fun _ => rfl) (fun _ => rfl) (fun _ => rfl) same same fun _ => rfl
    · exact three _ _ _ _ (fun _ => rfl) (fun _ => rfl) (fun _ => rfl) (fun _ => rfl) same same fun _ => rfl
    · exact three _ _ _ _ (fun _ => rfl) (fun _ => rfl) (fun _ => rfl) (fun _ => rfl) same same fun _ => rfl
    · exact three _ _ _ _ (fun _ => rfl) (fun _ => rfl) (fun _ => rfl) (fun _ => rfl) same same fun _ => rfl
    · exact three _ _ _ _ (fun _ => rfl) (fun _ => rfl) (fun _ => rfl) (fun _ => rfl) same same fun _ => rfl
    · exact three _ _ _ _ (fun _ => rfl) (fun _ => rfl) (fun _ => rfl) (fun _ => rfl)
        (status b n) (status (b - n) k)
        (fun x => by rw [State.statusBytes_add, State.statusBytes_add, Nat.sub_sub])
    · exact three _ _ _ _ (fun _ => rfl) (fun _ => rfl) (fun _ => rfl) (fun _ => rfl)
        (ident n) (ident k) (fun x => by rw [State.idBytes_add, State.idBytes_add])
    · cases known : recognisedBytes.contains c with
      | true =>
        have ignores := fun sp data => exec_recognised known sp data s
        exact ⟨s, s, s.settle, by rw [ignores, settled], by rw [ignores, settled], ignores _ _, ignores _ _⟩
      | false =>
        exact three _ _ _ _ (exec_unrecognised known _ _) (exec_unrecognised known _ _) (exec_unrecognised known _ _)
          (exec_unrecognised known _ _) (unknown d) (unknown e)
          fun x => by rw [State.unknownBytes_append, State.unknownBytes_append]
    · exact three _ _ _ _ (fun _ => rfl) (fun _ => rfl) (fun _ => rfl) (fun _ => rfl) same same fun _ => rfl

end Sys2Proof.Machine
end

section
/-! Programs and erases of an upstream transaction (01 §1.2, §1.4, §1.5): which window an address is judged by, what a forwarded,
a withheld and an aperture command does; the statements O30, O31 and O35. -/

namespace Sys2Proof.Machine

/-! ## The window in force and forwarding (R5) -/

theorem State.windowOf_free {s : State} (h : s.mode = .bypass ∨ s.layout = none) (a : Nat) :
    s.windowOf a = .pass ∧ s.forwards a = true := by
  have pass : s.windowOf a = .pass := by
    unfold State.windowOf
    rcases h with bypass | noLayout
    · rw [bypass]
    · rw [noLayout]
      cases s.mode <;> rfl
  exact ⟨pass, by rw [State.forwards, pass]⟩

theorem State.windowOf_layout {s : State} {l : Layout} (mode : s.mode ≠ .bypass) (layout : s.layout = some l) (a : Nat) :
    s.windowOf a = if l.windowOf a = .aperture ∧ s.mode = .normal then .pass else l.windowOf a := by
  unfold State.windowOf
  rw [layout]
  cases hm : s.mode with
  | bypass => exact absurd hm mode
  | normal => simp only [and_true]
  | commissioning => simp only [reduceCtorEq, and_false, if_false]

theorem State.forwards_iff (s : State) (a : Nat) :
    s.forwards a = true ↔ s.windowOf a = .pass ∨ s.windowOf a = .profiles ∧ s.guarded (sectorOf a) = false := by
  unfold State.forwards
  cases s.windowOf a <;> simp

/-- An address of PROFILES is forwarded but in the first sector of the selected slot (R173). -/
theorem State.guarded_sector {s : State} {l : Layout} (layout : s.layout = some l) (aligned : l.profiles % 4096 = 0) (a : Nat) :
    s.guarded (sectorOf a) = false ↔ ∀ r, s.region.selected = some r →
      ¬(l.profiles + 65536 * r.slot ≤ a ∧ a < l.profiles + 65536 * r.slot + 4096) := by
  rw [Bool.eq_false_iff, ne_eq, State.guarded_iff layout, not_exists]
  refine forall_congr' fun r => ?_
  rw [not_and]
  refine imp_congr_right fun _ => not_congr ?_
  unfold sectorOf
  omega

/-- Which window an address is judged by, and whether a write to it is forwarded, over the nine windows of a valid layout. -/
theorem State.windows_judge (s : State) (a : Nat) :
    (s.mode = .bypass ∨ s.layout = none → s.windowOf a = .pass ∧ s.forwards a = true) ∧
    ∀ l, s.mode ≠ .bypass → s.layout = some l → l.valid = true →
      (∀ w ∈ nineWindows.map (fun v => (v, l.base v, v.size)), w.2.1 ≤ a → a < w.2.1 + w.2.2 →
        s.windowOf a = (if w.1 = .aperture ∧ s.mode = .normal then .pass else w.1) ∧
        (s.forwards a = true ↔ (w.1 = .aperture ∧ s.mode = .normal) ∨ (w.1 = .profiles ∧
          ∀ r, s.region.selected = some r →
            ¬(l.profiles + 65536 * r.slot ≤ a ∧ a < l.profiles + 65536 * r.slot + 4096)))) ∧
      ((∀ w ∈ nineWindows.map (fun v => (v, l.base v, v.size)), ¬(w.2.1 ≤ a ∧ a < w.2.1 + w.2.2)) →
        s.windowOf a = .pass ∧ s.forwards a = true) := by
  refine ⟨fun h => State.windowOf_free h a, fun l mode layout valid => ⟨fun w hw low high => ?inside, fun outside => ?pass⟩⟩
  case inside =>
    obtain ⟨v, nine, rfl⟩ := List.mem_map.mp hw
    have window : s.windowOf a = if v = .aperture ∧ s.mode = .normal then .pass else v := by
      rw [State.windowOf_layout mode layout, Layout.windowOf_eq valid nine ((l.inWindow_iff v a).mpr ⟨low, high⟩)]
    have aligned : l.profiles % 4096 = 0 := by
      have := (l.valid_iff.mp valid).1 .profiles (by decide)
      simp only [Layout.base, Window.alignment] at this
      omega
    have guard := State.guarded_sector (s := s) layout aligned a
    refine ⟨window, ?_⟩
    rw [State.forwards_iff, window, ← guard]
    by_cases normal : v = .aperture ∧ s.mode = .normal
    · rw [if_pos normal]
      exact ⟨fun _ => .inl normal, fun _ => .inl rfl⟩
    · have named : v ≠ .pass := fun e => absurd (e ▸ nine) (by decide)
      rw [if_neg normal, or_iff_right named, or_iff_right normal]
  case pass =>
    have none : l.windowOf a = .pass := Layout.windowOf_pass fun v nine => by
      rw [Bool.eq_false_iff, ne_eq, Layout.inWindow_iff]
      exact outside _ (List.mem_map.mpr ⟨v, nine, rfl⟩)
    have pass : s.windowOf a = .pass := by
      rw [State.windowOf_layout mode layout, none, if_neg nofun]
    exact ⟨pass, by rw [State.forwards, pass]⟩

/-! ## Watches (R113, R114) -/

/-- A watch that covers writes counts a program or an erase by the address sent. -/
def Watch.countWrite (w : Watch) (addr : Address) : Watch :=
  if (w.kind = .write ∨ w.kind = .both) ∧ addr &&& w.mask = w.base &&& w.mask then { w with count := satSucc 65535 w.count }
  else w

theorem Watch.countTxn_write {t : Txn} {addr : Address} (command : t.command = .pageProgram ∨ t.command = .sectorErase ∨
    t.command = .blockErase) (sent : t.addr = addr.toNat) (plain : t.overlayGen = none) (w : Watch) :
    w.countTxn t = w.countWrite addr := by
  have covers : w.kind.covers t.command = decide (w.kind = .write ∨ w.kind = .both) := by
    rcases command with e | e | e <;> rw [e] <;> cases w.kind <;> rfl
  simp only [Watch.countTxn, Watch.countWrite, Watch.matchesTxn, covers, sent, plain, BitVec.ofNat_toNat, BitVec.setWidth_eq,
    Bool.and_eq_true, decide_eq_true_eq]

theorem Watch.countTxn_chipErase {t : Txn} (command : t.command = .chipErase) (w : Watch) : w.countTxn t = w := by
  have covers : w.kind.covers t.command = false := by
    rw [command]
    cases w.kind <;> rfl
  simp only [Watch.countTxn, Watch.matchesTxn, covers, Bool.false_and, Bool.false_eq_true, if_false]

/-! ## A whole write on a free lane -/

theorem State.lane_passing {s : State} {c : LaneCommand} {a : Nat} {bytes : State → State} {t : Txn} {sv : List Byte}
    (free : s.laneFree = true) (passing : (s.treatmentOf c a s.occupied).withholds = false)
    (passes : bytes (s.under (s.newTxn c a) []) = s.under t sv) (served : t.ignored = false) :
    s.lane .whole c a bytes = (s.passed sv).endTxn t := by
  rw [State.lane_free free, State.select_passing free passing, passes, State.deselect_under free served]

theorem State.lane_withholding {s : State} {c : LaneCommand} {a : Nat} {bytes : State → State} {t : Txn}
    (free : s.laneFree = true) (withheld : (s.treatmentOf c a s.occupied).withholds = true)
    (passes : bytes (s.disabled.under (s.newTxn c a) []) = s.disabled.under t []) (served : t.ignored = false) :
    s.lane .whole c a bytes = (s.disabled.passed []).endTxn t := by
  rw [State.lane_free free, State.select_withheld free withheld, passes,
    State.deselect_under (State.laneFree_disabled free) served]

theorem LaneCommand.isWrite_iff (c : LaneCommand) :
    c.isWrite = true ↔ c = .pageProgram ∨ c = .sectorErase ∨ c = .blockErase ∨ c = .chipErase := by
  cases c <;> simp [LaneCommand.isWrite]

theorem State.endTxn_forwarded {s : State} {t : Txn} (write : t.command.isWrite = true) (forwarded : t.treatment = .forwarded) :
    s.endTxn t = s.endForwardedWrite t := by
  unfold State.endTxn
  rcases t.command.isWrite_iff.mp write with h | h | h | h <;> rw [h, forwarded]

theorem State.endTxn_withheld {s : State} {t : Txn} {w : Window} {x : Option Nat} (write : t.command.isWrite = true)
    (withheld : t.treatment = .withheld w x) : s.endTxn t = s.endWithheld t w x := by
  unfold State.endTxn
  rcases t.command.isWrite_iff.mp write with h | h | h | h <;> rw [h, withheld]

/-! ## A forwarded write (R3, R9, R13, R114, R170) -/

/-- The directory after a write that reaches an address: the entry of a first sector of PROFILES it reaches is unknown. -/
theorem State.forgetProfile_region_some {s : State} {l : Layout} (layout : s.layout = some l) (a : Nat) :
    (s.forgetProfile a).region =
      if l.profiles ≤ a ∧ a < l.profiles + 524288 ∧ (a - l.profiles) % 65536 < 4096 then
        { s.region with directory := s.region.directory.set ((a - l.profiles) / 65536) none }
      else s.region := by
  have header : l.inHeaderSector a = true ↔ l.profiles ≤ a ∧ a < l.profiles + 524288 ∧ (a - l.profiles) % 65536 < 4096 := by
    simp only [Layout.inHeaderSector, Bool.and_eq_true, Layout.inWindow_iff, decide_eq_true_eq, and_assoc]
    rfl
  simp only [State.forgetProfile, layout, header]
  split_ifs <;> rfl

theorem State.forgetProfile_region_none {s : State} (layout : s.layout = none) (a : Nat) :
    (s.forgetProfile a).region = s.region := by
  simp only [State.forgetProfile, layout]

/-- The directory alone changes, and by the layout and the region alone. -/
theorem State.forgetProfile_as {s u : State} (layout : u.layout = s.layout) (region : u.region = s.region) (a : Nat) :
    u.forgetProfile a = { u with region := (s.forgetProfile a).region } := by
  have same : (u.forgetProfile a).region = (s.forgetProfile a).region := by
    cases hl : s.layout with
    | none => rw [State.forgetProfile_region_none (layout.trans hl), State.forgetProfile_region_none hl, region]
    | some l => rw [State.forgetProfile_region_some (layout.trans hl), State.forgetProfile_region_some hl, region]
  rw [← same]
  exact u.forgetProfile_eq a

/-- What a forwarded program or erase by an address changes. -/
theorem State.endForwardedWrite_eq {s : State} {t : Txn} {addr : Address} (command : t.command = .pageProgram ∨
    t.command = .sectorErase ∨ t.command = .blockErase) (sent : t.addr = addr.toNat) (plain : t.overlayGen = none) :
    s.endForwardedWrite t = { s with
      flash := (s.flashTakes t).flash, shadow := false
      counters := modifyAt s.counters (s.windowOf t.judgedAddr).index CounterSet.addWrite
      watches := s.watches.map fun w => w.countWrite addr, region := (s.forgetProfile t.judgedAddr).region } := by
  have byAddress : t.command ≠ .chipErase := by
    rcases command with h | h | h <;> rw [h] <;> nofun
  have taken : s.flashTakes t = { s with flash := (s.flashTakes t).flash } := by
    rcases command with h | h | h <;> simp only [State.flashTakes, h]
  have watched : (fun w : Watch => w.countTxn t) = fun w => w.countWrite addr :=
    funext (Watch.countTxn_write command sent plain)
  generalize (s.flashTakes t).flash = f at taken ⊢
  rw [State.endForwardedWrite, taken, if_neg byAddress, ← watched]
  refine State.forgetProfile_as (s := s) ?_ ?_ _ <;> rfl

/-- CHIP ERASE is counted in PASS, and no watch covers it (R13, R113). -/
theorem State.endForwardedWrite_chipErase {s : State} {t : Txn} (command : t.command = .chipErase) (mode : s.mode = .bypass) :
    s.endForwardedWrite t = { s with
      flash := s.flash.erase 0 flashSize, shadow := false, counters := modifyAt s.counters 0 CounterSet.addWrite } := by
  have watched : (fun w : Watch => w.countTxn t) = id := funext (Watch.countTxn_chipErase command)
  have pass : s.windowOf t.judgedAddr = .pass := (State.windowOf_free (.inl mode) _).1
  have taken : s.flashTakes t = { s with flash := s.flash.erase 0 flashSize } := by
    simp only [State.flashTakes, command]
  rw [State.endForwardedWrite, if_pos command, taken, pass, State.countWatches, watched, List.map_id]
  rfl

/-! ## What a write does to the bytes (R3) -/

theorem Memory.get_erase {m : Memory} (wf : m.wf = true) (base len a : Nat) :
    Memory.get (Memory.erase m base len) a = if base ≤ a ∧ a < base + len then 0xFF else Memory.get m a := by
  split
  · exact Memory.get_erase_inside wf (by omega) (by omega)
  · exact Memory.get_erase_outside wf (by omega)

/-- A run of at most 256 bytes from an offset of a page on reaches each offset at most once. -/
theorem Memory.get_programFrom {page o : Nat} (inside : page + 256 ≤ flashSize) (ho : o < 256) (data : List Byte) {off : Nat}
    {m : Memory} (wf : m.wf = true) (hoff : off < 256) (short : data.length ≤ 256) :
    Memory.get (Memory.programFrom m page off data) (page + o) =
      if (o + 256 - off) % 256 < data.length then
        Memory.get m (page + o) &&& data.getD ((o + 256 - off) % 256) 0
      else Memory.get m (page + o) := by
  induction data generalizing off m with
  | nil => rfl
  | cons b t ih =>
    rw [List.length_cons] at short
    have here : (page + off) % flashSize = page + off := Nat.mod_eq_of_lt (by omega)
    have wf' := Memory.wf_set (v := Memory.get m (page + off) &&& b) (show page + off < flashSize by omega) wf
    rw [Memory.programFrom, here, ih wf' (Nat.mod_lt _ (by decide)) (by omega), List.length_cons]
    by_cases same : o = off
    · subst same
      have first : (o + 256 - o) % 256 = 0 := by omega
      rw [if_neg (by omega), Memory.get_set_same _ _ wf, first, if_pos (Nat.succ_pos _)]
      rfl
    · have later : (o + 256 - off) % 256 = (o + 256 - (off + 1) % 256) % 256 + 1 := by omega
      rw [Memory.get_set_other _ (by omega) wf, later, List.getD_cons_succ]
      simp only [Nat.add_lt_add_iff_right]

theorem Memory.get_program {m : Memory} (wf : m.wf = true) (addr : Address) {data : List Byte} (short : data.length ≤ 256) {a : Nat}
    (ha : a < flashSize) :
    Memory.get (Memory.program m addr.toNat data) a =
      if a / 256 = addr.toNat / 256 ∧ (a % 256 + 256 - addr.toNat % 256) % 256 < data.length then
        Memory.get m a &&& data.getD ((a % 256 + 256 - addr.toNat % 256) % 256) 0
      else Memory.get m a := by
  have inFlash : addr.toNat < flashSize := addr.isLt
  by_cases page : a / 256 = addr.toNat / 256
  · have whole : lastPage data = data := by
      rw [lastPage, Nat.sub_eq_zero_of_le short, List.drop_zero]
    have split : a = addr.toNat / 256 * 256 + a % 256 := by omega
    have fits : addr.toNat / 256 * 256 + 256 ≤ flashSize := by
      unfold flashSize at *
      omega
    simp only [page, true_and]
    rw [Memory.program, whole, Nat.sub_eq_zero_of_le short, Nat.add_zero]
    have law := Memory.get_programFrom fits (Nat.mod_lt a (by decide)) data wf (Nat.mod_lt addr.toNat (by decide)) short
    rwa [← split] at law
  · rw [if_neg fun h => page h.1]
    refine Memory.get_program_outside data wf fun o ho e => page ?_
    rw [Nat.mod_eq_of_lt (by unfold flashSize at *; omega)] at e
    omega

/-! ## The commands as they are forwarded -/

theorem State.treatmentOf_page {s : State} {a : Nat} (free : s.occupied = false) (forwarded : s.forwards a = true)
    (plain : s.windowOf a ≠ .aperture) : s.treatmentOf .pageProgram a s.occupied = .forwarded := by
  simp only [State.treatmentOf, if_neg plain, free, forwarded, Bool.not_true, Bool.or_self, Bool.false_eq_true, if_false]

theorem State.treatmentOf_sector {s : State} {a : Nat} (free : s.occupied = false) (forwarded : s.forwards a = true) :
    s.treatmentOf .sectorErase a s.occupied = .forwarded := by
  simp only [State.treatmentOf, free, forwarded, Bool.not_true, Bool.or_self, Bool.false_eq_true, if_false]

theorem State.firstWithheld_none {s : State} {block : Nat} (all : ∀ k, k < 16 → s.forwards (block + 4096 * k) = true) :
    s.firstWithheld block = none := by
  rw [State.firstWithheld, List.find?_eq_none]
  intro x hx
  obtain ⟨k, hk, rfl⟩ := List.mem_map.mp hx
  rw [all k (List.mem_range.mp hk)]
  nofun

theorem State.treatmentOf_block {s : State} {a : Nat} (free : s.occupied = false)
    (all : ∀ k, k < 16 → s.forwards (blockOf a + 4096 * k) = true) : s.treatmentOf .blockErase a s.occupied = .forwarded := by
  simp only [State.treatmentOf, free, State.firstWithheld_none all, Bool.false_eq_true, if_false]

/-- Settles O30: the treatment forwards, the flash takes the command, and each write's bytes are followed. -/
theorem forwardedWritesReachTheFlash : Obligations.ForwardedWritesReachTheFlash := by
  have directory : ∀ (s : State) (a : Nat), (s.forgetProfile a).region = match s.layout with
      | some l => if l.profiles ≤ a ∧ a < l.profiles + 524288 ∧ (a - l.profiles) % 65536 < 4096 then
          { s.region with directory := s.region.directory.set ((a - l.profiles) / 65536) none } else s.region
      | none => s.region := fun s a => by
    cases hl : s.layout with
    | none => exact State.forgetProfile_region_none hl a
    | some l => exact State.forgetProfile_region_some hl a
  refine ⟨State.windows_judge, fun addr data s free idle forwarded plain => ?page, fun addr s free idle forwarded => ?sector,
    fun addr s free idle => ?block, fun s free mode => ?chip, fun m base len wf a => Memory.get_erase wf base len a,
    fun m addr data wf short a ha => Memory.get_program wf addr short ha⟩
  case page =>
    have treated := State.treatmentOf_page idle forwarded plain
    have lane : s.lane .whole .pageProgram addr.toNat (fun x => x.takeData data) = _ :=
      (State.lane_passing (t := { s.newTxn .pageProgram addr.toNat with data := data }) free (by rw [treated]; rfl) rfl rfl).trans
        ((State.endTxn_forwarded rfl treated).trans (State.endForwardedWrite_eq (addr := addr) (.inl rfl) rfl rfl))
    refine (congrArg (fun x : State => Host.Outcome.next x.settle) lane).trans ?_
    rw [directory]
    rfl
  case sector =>
    have treated := State.treatmentOf_sector idle forwarded
    have lane : s.lane .whole .sectorErase addr.toNat id = _ :=
      (State.lane_passing (t := s.newTxn .sectorErase addr.toNat) free (by rw [treated]; rfl) rfl rfl).trans
        ((State.endTxn_forwarded rfl treated).trans (State.endForwardedWrite_eq (addr := addr) (.inr (.inl rfl)) rfl rfl))
    refine (congrArg (fun x : State => Host.Outcome.next x.settle) lane).trans ?_
    rw [directory]
    rfl
  case block =>
    intro block all
    have treated := State.treatmentOf_block idle all
    have lane : s.lane .whole .blockErase addr.toNat id = _ :=
      (State.lane_passing (t := s.newTxn .blockErase addr.toNat) free (by rw [treated]; rfl) rfl rfl).trans
        ((State.endTxn_forwarded rfl treated).trans (State.endForwardedWrite_eq (addr := addr) (.inr (.inr rfl)) rfl rfl))
    refine (congrArg (fun x : State => Host.Outcome.next x.settle) lane).trans ?_
    rw [directory]
    rfl
  case chip =>
    have treated : s.treatmentOf .chipErase 0 s.occupied = .forwarded := if_pos mode
    have lane : s.lane .whole .chipErase 0 id = _ :=
      (State.lane_passing (t := s.newTxn .chipErase 0) free (by rw [treated]; rfl) rfl rfl).trans
        ((State.endTxn_forwarded rfl treated).trans (State.endForwardedWrite_chipErase rfl mode))
    exact congrArg (fun x : State => Host.Outcome.next x.settle) lane

/-! ## A withheld write (R8, R11) -/

/-- A withheld program or erase as it has ended: no byte, the shadow and the latch, one count, its watches, one condition. -/
def State.withheld (s : State) (t : Txn) (w : Window) (x : Option Nat) : State :=
  (s.disabled.passed []).endWithheld t w x

/-- The condition a withheld write queues. -/
def State.withheldConds (s : State) (x : Option Nat) (command : Option Byte) : Conditions :=
  (s.raise { cls := if s.occupied then .collision else .laneRefused, address := x, command := command }).conds

section
variable {s : State} {t : Txn} {w : Window} {x : Option Nat}

theorem State.withheld_flash : (s.withheld t w x).flash = if s.occupied then s.flash else s.flash.setLatch false := by
  rw [State.withheld, State.endWithheld, State.raise_flash]
  rfl

theorem State.withheld_cells : (s.withheld t w x).flash.cells = s.flash.cells := by
  rw [State.withheld_flash]
  cases s.occupied <;> rfl

theorem State.withheld_latch : (s.withheld t w x).flash.latch = (s.occupied && s.flash.latch) := by
  rw [State.withheld_flash]
  cases s.occupied <;> rfl

theorem State.withheld_shadow : (s.withheld t w x).shadow = false := by
  rw [State.withheld, State.endWithheld, State.raise_shadow]
  rfl

theorem State.withheld_watches : (s.withheld t w x).watches = s.watches.map fun v => v.countTxn t := by
  rw [State.withheld, State.endWithheld, State.raise_watches]
  rfl

theorem State.withheld_counters : (s.withheld t w x).counters = modifyAt s.counters w.index CounterSet.addWithheld := by
  rw [State.withheld, State.endWithheld, State.raise_counters]
  rfl

theorem State.withheld_intake : (s.withheld t w x).intake = s.intake := by
  rw [State.withheld, State.endWithheld, State.raise_intake]
  rfl

theorem State.withheld_upstream : (s.withheld t w x).upstream = none := by
  rw [State.withheld, State.endWithheld, State.raise_upstream]
  rfl

theorem State.withheld_seq : (s.withheld t w x).seq = (s.passed []).seq := by
  rw [State.withheld, State.endWithheld, State.raise_seq]
  rfl

theorem State.withheld_conds (now : t.occupied = s.occupied) :
    (s.withheld t w x).conds = s.withheldConds x (if t.command = .chipErase then t.command.byte else none) := by
  have report : t.withheldReport x = {
      cls := if s.occupied then .collision else .laneRefused, address := x
      command := if t.command = .chipErase then t.command.byte else none } := by
    rw [Txn.withheldReport, now]
  have judged : ∀ r, ((((s.disabled.passed []).charge w CounterSet.addWithheld).countWatches t).raise r).conds = (s.raise r).conds :=
    State.raise_conds_congr rfl rfl rfl
  exact (judged _).trans (congrArg (fun r => (s.raise r).conds) report)

end

/-- A withheld write's whole transaction on a free lane. -/
theorem State.lane_withheld {s : State} {c : LaneCommand} {a : Nat} {bytes : State → State} {t : Txn} {w : Window} {x : Option Nat}
    (free : s.laneFree = true) (write : c.isWrite = true) (treated : s.treatmentOf c a s.occupied = .withheld w x)
    (passes : bytes (s.disabled.under (s.newTxn c a) []) = s.disabled.under t []) (same : (s.newTxn c a).continues t) :
    s.lane .whole c a bytes = s.withheld t w x := by
  obtain ⟨ignored, command, -, -, treatment, -⟩ := same
  rw [State.lane_withholding free (by rw [treated]; rfl) passes ignored]
  exact State.endTxn_withheld (by rw [command]; exact write) (treatment.trans treated)

theorem State.treatmentOf_withheld {s : State} {a : Nat} (h : s.occupied = true ∨ s.forwards a = false) :
    s.treatmentOf .sectorErase a s.occupied = .withheld (s.windowOf a) (some (sectorOf a)) := by
  have held : (s.occupied || !s.forwards a) = true := by
    rw [Bool.or_eq_true, Bool.not_eq_true']
    exact h
  simp only [State.treatmentOf, held, if_true]

theorem State.treatmentOf_page_withheld {s : State} {a : Nat} (plain : s.windowOf a ≠ .aperture)
    (h : s.occupied = true ∨ s.forwards a = false) :
    s.treatmentOf .pageProgram a s.occupied = .withheld (s.windowOf a) (some (sectorOf a)) :=
  (if_neg plain).trans (State.treatmentOf_withheld h)

/-- A BLOCK ERASE is judged by the lowest sector that would be withheld (R7). -/
theorem State.firstWithheld_some {s : State} {block k : Nat} (inside : k < 16) (held : s.forwards (block + 4096 * k) = false)
    (below : ∀ j, j < k → s.forwards (block + 4096 * j) = true) : s.firstWithheld block = some (block + 4096 * k) := by
  have found : (List.range 16).find? (fun i => !s.forwards (block + 4096 * i)) = some k := by
    rw [List.find?_range_eq_some]
    refine ⟨by rw [held]; rfl, List.mem_range.mpr inside, fun j hj => ?_⟩
    rw [below j hj]
    rfl
  rw [State.firstWithheld, List.find?_map, Function.comp_def, found]
  rfl

/-- Settles O31: the treatment withholds, and each field of the state a withheld write leaves is read off. -/
theorem withheldWritesAreRefused : Obligations.WithheldWritesAreRefused := by
  refine ⟨State.windows_judge, fun addr data s free plain h => ?page, fun addr s free h => ?sector,
    fun addr k s free idle inside held below => ?block, fun addr s free occupied => ?blockOccupied, fun s free mode => ?chip⟩
  case page =>
    have lane : s.lane .whole .pageProgram addr.toNat (fun x => x.takeData data) = _ :=
      State.lane_withheld (t := { s.newTxn .pageProgram addr.toNat with data := data }) free rfl
        (State.treatmentOf_page_withheld plain h) rfl ⟨rfl, rfl, rfl, rfl, rfl, rfl⟩
    refine ⟨_, congrArg (fun x : State => Host.Outcome.next x.settle) lane, State.withheld_cells, State.withheld_shadow, ?_,
      State.withheld_latch, State.withheld_counters, State.withheld_conds rfl, State.withheld_intake, State.withheld_upstream,
      State.withheld_seq⟩
    exact State.withheld_watches.trans (List.map_congr_left fun v _ => Watch.countTxn_write (.inl rfl) rfl rfl v)
  case sector =>
    have lane : s.lane .whole .sectorErase addr.toNat id = _ :=
      State.lane_withheld (t := s.newTxn .sectorErase addr.toNat) free rfl (State.treatmentOf_withheld h) rfl (Txn.continues_refl _)
    refine ⟨_, congrArg (fun x : State => Host.Outcome.next x.settle) lane, State.withheld_cells, State.withheld_shadow, ?_,
      State.withheld_latch, State.withheld_counters, State.withheld_conds rfl, State.withheld_intake, State.withheld_upstream,
      State.withheld_seq⟩
    exact State.withheld_watches.trans (List.map_congr_left fun v _ => Watch.countTxn_write (.inr (.inl rfl)) rfl rfl v)
  case block =>
    have treated : s.treatmentOf .blockErase addr.toNat s.occupied = .withheld (s.windowOf (blockOf addr.toNat + 4096 * k))
        (some (blockOf addr.toNat + 4096 * k)) := by
      simp only [State.treatmentOf, idle, State.firstWithheld_some inside held below, Bool.false_eq_true, if_false]
    have lane : s.lane .whole .blockErase addr.toNat id = _ :=
      State.lane_withheld (t := s.newTxn .blockErase addr.toNat) free rfl treated rfl (Txn.continues_refl _)
    refine ⟨_, congrArg (fun x : State => Host.Outcome.next x.settle) lane, State.withheld_cells, State.withheld_shadow, ?_, ?_,
      State.withheld_counters, ?_, State.withheld_upstream⟩
    · exact State.withheld_watches.trans (List.map_congr_left fun v _ => Watch.countTxn_write (.inr (.inr rfl)) rfl rfl v)
    · exact State.withheld_latch.trans (by rw [idle]; rfl)
    · refine (State.withheld_conds rfl).trans ?_
      rw [State.withheldConds, idle]
      rfl
  case blockOccupied =>
    have treated : s.treatmentOf .blockErase addr.toNat s.occupied = .withheld (s.windowOf (blockOf addr.toNat))
        (some (blockOf addr.toNat)) := by
      simp only [State.treatmentOf, occupied, if_true]
    have lane : s.lane .whole .blockErase addr.toNat id = _ :=
      State.lane_withheld (t := s.newTxn .blockErase addr.toNat) free rfl treated rfl (Txn.continues_refl _)
    refine ⟨_, congrArg (fun x : State => Host.Outcome.next x.settle) lane, ?_, State.withheld_shadow, ?_,
      State.withheld_counters, ?_, State.withheld_upstream⟩
    · exact State.withheld_flash.trans (if_pos occupied)
    · exact State.withheld_watches.trans (List.map_congr_left fun v _ => Watch.countTxn_write (.inr (.inr rfl)) rfl rfl v)
    · refine (State.withheld_conds rfl).trans ?_
      rw [State.withheldConds, occupied]
      rfl
  case chip =>
    have treated : s.treatmentOf .chipErase 0 s.occupied = .withheld .pass none := if_neg mode
    have lane : s.lane .whole .chipErase 0 id = _ :=
      State.lane_withheld (t := s.newTxn .chipErase 0) free rfl treated rfl (Txn.continues_refl _)
    refine ⟨_, congrArg (fun x : State => Host.Outcome.next x.settle) lane, State.withheld_cells, State.withheld_shadow,
      State.withheld_latch, State.withheld_counters, ?_, State.withheld_conds rfl⟩
    refine State.withheld_watches.trans ?_
    rw [funext (Watch.countTxn_chipErase rfl), List.map_id']

/-! ## A program into the aperture (R28, R29) -/

theorem State.startJob_flash (s : State) (l : Layout) (j : Job) : (s.startJob l j).flash = s.flash := by
  unfold State.startJob State.startKeyStore State.startAppend
  cases j.kind with
  | keyStore => dsimp only; split <;> rfl
  | closeOut =>
    dsimp only
    split
    · split
      · exact (State.endJob_fields _ _ _ _).2.2.2.1.trans (s.raise_flash _)
      · rfl
    · rfl
  | _ => rfl

theorem State.startFrom_flash (s : State) (l : Layout) (ws : List Job) : (s.startFrom l ws).flash = s.flash := by
  induction ws generalizing s with
  | nil => rfl
  | cons j t ih =>
    rw [State.startFrom]
    split
    · exact (ih _).trans (State.startJob_flash _ l j)
    · rfl

theorem State.startDue_flash (s : State) : s.startDue.flash = s.flash := by
  unfold State.startDue
  split
  · exact s.startFrom_flash _ _
  · rfl

theorem State.Judged.flash {s u : State} {r : Result} (h : s.Judged u r) : u.flash = s.flash := by
  cases h with
  | reset =>
    unfold judgeResetSession
    obtain e | ⟨i, -, -, -, e⟩ := State.discardWaiting_cases _ <;> rw [e]
    rw [State.discardFrame_flash]
  | frameOpen | zones | frameAbandon => rw [State.setFrame_flash]
  | frameClose => rw [State.setFrame_flash, State.takeFrame_flash]
  | rollback => unfold State.popHistory; split <;> rfl
  | _ => rfl

/-- A record reaches no byte of the flash, nor its latch. -/
theorem State.takeProgram_flash (s : State) (offset : Nat) (data : List Byte) : (s.takeProgram offset data).flash = s.flash :=
  State.takeProgram_keeps (P := fun x => x.flash = s.flash) (fun _ _ _ h => h) (fun _ h => h)
    (fun _ _ _ _ h => State.takeRecord_keeps (fun _ _ judged => judged.flash.trans h) (fun _ _ _ h => h)
      (fun x h => x.startDue_flash.trans h)) offset data rfl

theorem State.commissioning_of_aperture {s : State} {a : Nat} (h : s.windowOf a = .aperture) : s.mode = .commissioning := by
  cases hm : s.mode with
  | commissioning => rfl
  | bypass => exact absurd ((State.windowOf_free (.inl hm) a).1.symm.trans h) nofun
  | normal =>
    cases hl : s.layout with
    | none => exact absurd ((State.windowOf_free (.inr hl) a).1.symm.trans h) nofun
    | some l =>
      rw [State.windowOf_layout (by rw [hm]; nofun) hl, hm] at h
      split_ifs at h with normal
      exact absurd ⟨h, rfl⟩ normal

theorem State.recordsReach_passed {s : State} (free : s.laneFree = true) (mode : s.mode = .commissioning) :
    (s.passed []).recordsReach = true := by
  obtain ⟨hold, rst, -, -⟩ := (State.laneFree_iff s).mp free
  simp only [State.recordsReach, Bool.and_eq_true, decide_eq_true_eq, Bool.not_eq_true', Option.isNone_iff_eq_none]
  exact ⟨⟨⟨mode, hold⟩, rst⟩, rfl⟩

/-- A part of a list, element by element. -/
theorem slice_eq_map {α : Type} (d : α) {l : List α} {off n : Nat} (inside : off + n ≤ l.length) :
    slice l off n = (List.range n).map fun i => l.getD (off + i) d := by
  refine List.ext_getElem (by simp only [slice, List.length_take, List.length_drop, List.length_map, List.length_range]; omega)
    fun i h _ => ?_
  simp only [slice, List.length_take, List.length_drop] at h
  simp only [slice, List.getElem_take, List.getElem_drop, List.getElem_map, List.getElem_range]
  rw [List.getD_eq_getElem]

/-- A program of four bytes or more from the page's start on, with no more bytes named than it has, is the record of its bytes. -/
theorem frameRecord_framed {data : List Byte} (four : 4 ≤ data.length)
    (fits : fieldAt (programmedBytes data) 2 2 ≤ min 256 data.length - 4) :
    frameRecord 0 data = .inl {
      kind := (lastByteAt data 0).getD 0, tag := (lastByteAt data 1).getD 0
      body := (List.range (fieldAt (programmedBytes data) 2 2)).map fun o => (lastByteAt data (4 + o)).getD 0 } := by
  have length := programmedBytes_length data
  have each : ∀ o, o < 256 → (programmedBytes data).getD o 0 = (lastByteAt data o).getD 0 := fun o ho => by
    rw [List.getD_eq_getElem?_getD, getElem?_programmedBytes data ho]
  have body : slice (programmedBytes data) 4 (fieldAt (programmedBytes data) 2 2) =
      (List.range (fieldAt (programmedBytes data) 2 2)).map fun o => (lastByteAt data (4 + o)).getD 0 := by
    rw [slice_eq_map 0 (by omega)]
    exact List.map_congr_left fun o ho => each _ (by rw [List.mem_range] at ho; omega)
  rw [← body, ← each 0 (by omega), ← each 1 (by omega)]
  refine if_neg ?_
  omega

/-- The state a program into the aperture hands to its record: written, watched and withheld from the flash. -/
def State.aperturePassed (s : State) (addr : Address) : State :=
  { s.passed [] with
    shadow := false
    flash := if s.occupied then s.flash else s.flash.setLatch false
    counters := modifyAt s.counters 4 CounterSet.addWrite
    watches := s.watches.map fun w => w.countWrite addr }

theorem State.lane_aperture {s : State} {addr : Address} (data : List Byte) (free : s.laneFree = true)
    (window : s.windowOf addr.toNat = .aperture) :
    s.lane .whole .pageProgram addr.toNat (fun x => x.takeData data) =
      (s.aperturePassed addr).takeProgram (addr.toNat % 256) data := by
  have treated : s.treatmentOf .pageProgram addr.toNat s.occupied = .record := if_pos window
  rw [State.lane_withholding (t := { s.newTxn .pageProgram addr.toNat with data := data }) free (by rw [treated]; rfl) rfl rfl,
    State.endTxn]
  simp only [State.newTxn, treated]
  rw [State.endRecord, State.countWatches, funext (Watch.countTxn_write (addr := addr) (.inl rfl) rfl rfl)]
  rfl

/-- Settles O35: the program ends as a record whose framing is its bytes', and each way a record may go is the command's own. -/
theorem aperturePageProgramsAreRecords : Obligations.AperturePageProgramsAreRecords := by
  intro addr data s free window count byte size body framed
  have reach : (s.aperturePassed addr).recordsReach = true :=
    State.recordsReach_passed free (State.commissioning_of_aperture window)
  have bytes : ∀ o, byte o = (lastByteAt data o).getD 0 := fun o => by
    simp only [byte, lastByteAt]
    cases (List.range data.length).reverse.find? _ <;> rfl
  have taken := State.takeProgram_flash (s.aperturePassed addr) (addr.toNat % 256) data
  refine ⟨s.aperturePassed addr, _, rfl, congrArg (fun x : State => Host.Outcome.next x.settle) (State.lane_aperture data free window),
    taken, ?cells, rfl, fun _ => ?unframed, fun ok => ?framed⟩
  case cells =>
    refine (congrArg Flash.cells taken).trans ?_
    simp only [State.aperturePassed]
    cases s.occupied <;> rfl
  case unframed =>
    show Host.Outcome.next (State.settle _) = _
    rw [if_pos reach, BitVec.toNat_ofNat]
  case framed =>
    obtain ⟨start, four, fits⟩ := ok
    have long : 4 ≤ data.length := by omega
    have field : fieldAt (programmedBytes data) 2 2 = size := by
      have number : ∀ o, (byte o).toNat = ((lastByteAt data o).map BitVec.toNat).getD 0 := fun o => by
        rw [bytes]
        cases lastByteAt data o <;> rfl
      rw [fieldAt_programmedBytes long, ← number, ← number]
    have record : frameRecord (addr.toNat % 256) data = .inl { kind := byte 0, tag := byte 1, body := body } := by
      rw [start, frameRecord_framed long (by rw [field]; exact fits), field]
      simp only [body, bytes]
    rw [State.takeProgram, record]
    constructor
    · intro k known
      rw [exec_kindCommand, State.recordCommand, if_pos reach]
      dsimp only
      rw [State.takeFramed, known]
    · intro unknown
      show Host.Outcome.next (State.settle _) = _
      rw [if_pos reach]

end Sys2Proof.Machine
end

section
/-! Reads of an upstream transaction (01 §1.3, R6, R11, R35, R45): where each byte comes from, what a whole READ or FAST READ serves
and changes; the statements O16 and O29. -/

namespace Sys2Proof.Machine

/-! ## The source of a byte (R5, R6, R100, R173) -/

theorem State.source_free {s : State} (h : s.mode = .bypass ∨ s.layout = none) (slot : Option Nat) (a : Nat) :
    s.source slot a = .flash a := by
  rw [State.source, (State.windowOf_free h a).1]

theorem Grid.presentedLength_eq (g : Grid) : g.presentedLength =
    if g.width = 6 then 32 + 3 * ((3 * g.zones + 3) / 4) else 32 + 3 * g.zones := rfl

theorem State.source_layout {s : State} {l : Layout} (mode : s.mode ≠ .bypass) (layout : s.layout = some l) (valid : l.valid = true)
    (slot : Option Nat) (a : Nat) : s.source slot a =
      if s.mode = .commissioning ∧ l.aperture ≤ a ∧ a < l.aperture + 65536 then
        .page ((a - l.aperture) / 256) ((a - l.aperture) % 256)
      else if s.mode = .commissioning ∧ s.grid.geometry ≠ none ∧ l.panel ≤ a ∧ a < l.panel + 28672 ∧
          a - l.panel < s.grid.presentedLength then .overlay (a - l.panel)
      else if l.remap ≤ a ∧ a < l.remap + 65536 then
        match slot with
        | some k => .flash (l.profiles + 65536 * k + (a - l.remap))
        | none => .flash a
      else .flash a := by
  have inside : ∀ w ∈ nineWindows, (l.base w ≤ a ∧ a < l.base w + w.size ↔ l.windowOf a = w) := fun w nine => by
    rw [← Layout.inWindow_iff]
    refine ⟨Layout.windowOf_eq valid nine, fun e => ?_⟩
    rcases l.windowOf_inWindow a with pass | ⟨-, holds⟩
    · exact absurd nine (by rw [← e, pass]; decide)
    · rwa [e] at holds
  have aligned : l.aperture % 65536 = 0 := ((l.valid_iff.mp valid).1 .aperture (by decide)).1
  have aperture := inside .aperture (by decide)
  have panel := inside .panel (by decide)
  have remap := inside .remap (by decide)
  simp only [Layout.base, Window.size] at aperture panel remap
  have active : ∀ p : Prop, s.mode = .commissioning ∧ s.grid.geometry ≠ none ∧ p ↔ s.overlayActive = true ∧ p := fun p => by
    rw [State.overlayActive, Bool.and_eq_true, decide_eq_true_eq, ← Option.ne_none_iff_isSome, and_assoc]
  have panel' : ∀ p : Prop, l.panel ≤ a ∧ a < l.panel + 28672 ∧ p ↔ l.windowOf a = .panel ∧ p := fun p => by
    rw [← panel, and_assoc]
  simp only [aperture, remap, panel', active]
  rw [State.source, State.windowOf_layout mode layout, layout]
  cases hw : l.windowOf a with
  | aperture =>
    have inWindow := aperture.mpr hw
    cases hm : s.mode with
    | bypass => exact absurd hm mode
    | normal => simp
    | commissioning =>
      have offset : a % 256 = (a - l.aperture) % 256 := by omega
      simp [offset]
  | panel => simp
  | remap => cases slot <;> simp [profileAddr]
  | _ => simp

/-- The byte a source gives as the read stands: inside an occupied period the flash is not read (R6, R11). -/
def State.byteNow (s : State) (src : Source) : Byte := if s.occupied then s.sourceByteOccupied src else s.sourceByte src

/-- A job whose read is cut is PAUSED as before (R128): the next step stands, and whether it has begun. -/
theorem State.jobPaused_cutRead (s : State) : s.cutRead.jobPaused = s.jobPaused := by
  cases active : s.seq.active with
  | none => simp only [State.jobPaused, State.cutRead, active, Option.map_none]
  | some a =>
    have begun : (a.cut.phase = .occupied) = (a.phase = .occupied) ∧ a.cut.todo = a.todo := by
      unfold Active.cut
      cases h : a.phase <;> simp [h]
    simp only [State.jobPaused, State.cutRead, active, Option.map_some, ne_eq, begun]

theorem Active.cut_job (a : Active) : a.cut.job = a.job := by
  unfold Active.cut
  cases a.phase <;> rfl

/-- Of the job in progress the status page shows the kind, and whether it is PAUSED (R36). -/
theorem State.statusPage_active {s : State} {q : Option Active}
    (paused : State.jobPaused { s with seq := { s.seq with active := q } } = s.jobPaused)
    (job : q.map Active.job = s.seq.active.map Active.job) :
    State.statusPage { s with seq := { s.seq with active := q } } = s.statusPage := by
  unfold State.statusPage
  rw [paused]
  cases active : s.seq.active with
  | none =>
    rw [active, Option.map_none, Option.map_eq_none_iff] at job
    rw [job]
    rfl
  | some a =>
    rw [active, Option.map_some, Option.map_eq_some_iff] at job
    obtain ⟨b, rfl, same⟩ := job
    simp only [same]
    rfl

/-- A response page does not show the panel read hold, the transaction, the bytes served or a read being cut. -/
theorem State.responsePage_under (s : State) (t : Option Txn) (sv : List Byte) (hold : Bool) (n : Nat) :
    State.responsePage { s.cutRead with upstream := t, served := sv, grid := { s.grid with hold := hold } } n = s.responsePage n := by
  have hidden : ∀ x : State, State.responsePage { x with upstream := t, served := sv, grid := { x.grid with hold := hold } } n =
      x.responsePage n := fun _ => rfl
  have status : s.cutRead.statusPage = s.statusPage := by
    refine State.statusPage_active s.jobPaused_cutRead ?_
    rw [Option.map_map]
    exact congrArg (fun f => Option.map f s.seq.active) (funext Active.cut_job)
  refine (hidden s.cutRead).trans ?_
  unfold State.responsePage
  rw [status]
  rfl

/-! ## The bytes of a whole read -/

/-- A read that began as the lane stood at `s`, after `k` bytes: what it served, whether the overlay was shown, the first byte that
was filled, and the pages kept. -/
def State.reading (s : State) (c : LaneCommand) (addr k : Nat) (sv : List Byte) (shown : Bool) (filled : Option Nat)
    (pages : List (Nat × List Byte)) : State :=
  { s.cutRead with
    served := sv, grid := { s.grid with hold := shown }
    upstream := some { s.newTxn c addr with
      served := k, pages := pages, firstFilled := filled
      overlayGen := if shown then some s.grid.generation else none } }

/-- Every page kept for a read is the one the state had when it began (R35). -/
def State.pagesOf (s : State) (pages : List (Nat × List Byte)) : Prop := ∀ p ∈ pages, p.2 = s.responsePage p.1

section
variable {s : State} {c : LaneCommand} {addr k : Nat} {sv : List Byte} {shown : Bool} {filled : Option Nat}
  {pages : List (Nat × List Byte)}

/-- One byte more, by its source. -/
theorem State.serveByte_reading (kept : s.pagesOf pages) : ∃ pages', s.pagesOf pages' ∧
    (s.reading c addr k sv shown filled pages).serveByte =
      s.reading c addr (k + 1) (sv ++ [s.byteNow (s.sourceAt addr k)]) (shown || (s.sourceAt addr k).isOverlay)
        (if s.occupied = true ∧ (s.sourceAt addr k).isFlash = true then some (filled.getD ((addr + k) % flashSize)) else filled)
        pages' := by
  have source : (s.reading c addr k sv shown filled pages).source (s.region.selected.map fun r => r.slot) ((addr + k) % flashSize) =
    s.sourceAt addr k := rfl
  simp only [State.serveByte, State.reading, State.newTxn, Bool.false_eq_true, if_false] at source ⊢
  rw [source]
  cases s.sourceAt addr k with
  | flash x =>
    refine ⟨pages, kept, ?_⟩
    simp only [Source.isOverlay, Source.isFlash, Bool.or_false, and_true, State.byteNow]
    by_cases occupied : s.occupied = true
    · simp only [if_pos occupied]
      rfl
    · simp only [if_neg occupied]
      rfl
  | overlay o =>
    refine ⟨pages, kept, ?_⟩
    have byte : s.byteNow (.overlay o) = s.grid.overlayByte o := ite_self _
    simp only [Source.isOverlay, Source.isFlash, Bool.or_true, Bool.false_eq_true, and_false, if_false, if_true, byte]
    cases shown <;> rfl
  | page n o =>
    have byte : s.byteNow (.page n o) = (s.responsePage n).getD o 0 := ite_self _
    simp only [Source.isOverlay, Source.isFlash, Bool.or_false, Bool.false_eq_true, and_false, if_false, byte]
    split
    · rename_i p found
      have asBegun := kept p (List.mem_of_find?_eq_some found)
      have number : p.1 = n := by simpa using List.find?_some found
      refine ⟨pages, kept, ?_⟩
      rw [asBegun, number]
      rfl
    · refine ⟨(n, s.responsePage n) :: pages, ?_, ?_⟩
      · exact List.forall_mem_cons.mpr ⟨rfl, kept⟩
      · simp only [State.responsePage_under]
        rfl

end

/-- Whether a read shows a byte of the overlay, and where it first meets the flash inside an occupied period. -/
def State.shows (s : State) (addr n : Nat) : Bool := (List.range n).any fun i => (s.sourceAt addr i).isOverlay

def State.fills (s : State) (addr n : Nat) : Option Nat :=
  if s.occupied then ((List.range n).find? fun i => (s.sourceAt addr i).isFlash).map fun i => (addr + i) % flashSize else none

theorem State.fills_succ (s : State) (addr n : Nat) : s.fills addr (n + 1) =
    if s.occupied = true ∧ (s.sourceAt addr n).isFlash = true then some ((s.fills addr n).getD ((addr + n) % flashSize))
    else s.fills addr n := by
  unfold State.fills
  by_cases occupied : s.occupied = true
  · simp only [occupied, true_and, if_true, List.range_succ, List.find?_append, List.find?_singleton]
    cases (List.range n).find? (fun i => (s.sourceAt addr i).isFlash) <;> cases (s.sourceAt addr n).isFlash <;> rfl
  · simp only [occupied, false_and, Bool.false_eq_true, if_false]

/-- A whole read as its last byte has passed (R6, R11). -/
theorem State.serveBytes_whole {s : State} (free : s.laneFree = true) (c : LaneCommand) (addr n : Nat) :
    ∃ pages, s.pagesOf pages ∧ (s.under (s.newTxn c addr) []).serveBytes n =
      s.reading c addr n ((List.range n).map fun i => s.byteNow (s.sourceAt addr i)) (s.shows addr n) (s.fills addr n) pages := by
  induction n with
  | zero =>
    have unheld : { s.grid with hold := false } = s.grid := by
      rw [← ((State.laneFree_iff s).mp free).2.2.2]
    refine ⟨[], List.forall_mem_nil _, ?_⟩
    have none : s.fills addr 0 = none := ite_self _
    rw [none, State.reading, State.shows, List.range_zero, List.any_nil, unheld]
    rfl
  | succ n ih =>
    obtain ⟨pages, kept, so⟩ := ih
    obtain ⟨pages', kept', more⟩ := State.serveByte_reading (s := s) (c := c) (addr := addr) (k := n) kept
    refine ⟨pages', kept', ?_⟩
    rw [State.serveBytes_add, so, State.fills_succ]
    refine more.trans ?_
    simp only [State.shows, List.range_succ, List.map_append, List.map_cons, List.map_nil, List.any_append, List.any_cons,
      List.any_nil, Bool.or_false]

/-! ## A whole read ends -/

/-- A watch that covers reads counts a read by the address sent, and keeps the generation served where there is one (R114). -/
def Watch.countRead (w : Watch) (addr : Address) (gen : Option Nat) : Watch :=
  if (w.kind = .read ∨ w.kind = .both) ∧ addr &&& w.mask = w.base &&& w.mask then
    { w with count := satSucc 65535 w.count, lastGen := gen.getD w.lastGen }
  else w

theorem Watch.countTxn_read {t : Txn} {addr : Address} (command : t.command = .read ∨ t.command = .fastRead)
    (sent : t.addr = addr.toNat) (w : Watch) : w.countTxn t = w.countRead addr t.overlayGen := by
  have covers : w.kind.covers t.command = decide (w.kind = .read ∨ w.kind = .both) := by
    rcases command with e | e <;> rw [e] <;> cases w.kind <;> rfl
  simp only [Watch.countTxn, Watch.countRead, Watch.matchesTxn, covers, sent, BitVec.ofNat_toNat, BitVec.setWidth_eq,
    Bool.and_eq_true, decide_eq_true_eq]
  cases t.overlayGen <;> rfl

/-- A publish changes of what a report is taken by the session's publish-seen mark alone. -/
theorem State.publishWaiting_raise (s : State) (r : Report) : (s.publishWaiting.raise r).conds = (s.raise r).conds := by
  have times : s.publishWaiting.session.timeValid = s.session.timeValid ∧ s.publishWaiting.session.day = s.session.day ∧
      s.publishWaiting.session.seconds = s.session.seconds := by
    obtain e | ⟨i, -, -, -, ⟨-, e⟩ | ⟨-, e⟩⟩ := s.publishWaiting_cases <;> rw [e]
    · exact ⟨rfl, rfl, rfl⟩
    · rw [State.takeFrame_session, State.discardFrame_session]
      exact ⟨rfl, rfl, rfl⟩
    · rw [State.takeFrame_session]
      exact ⟨rfl, rfl, rfl⟩
  obtain ⟨valid, day, seconds⟩ := times
  simp only [State.raise, State.newRecord, State.publishWaiting_conds, State.publishWaiting_mode, valid, day, seconds]
  split_ifs <;> rfl

/-- The state a whole read leaves but for what it counts and reports: a frame that waited for the panel read hold has published. -/
def State.afterRead (s : State) (addr n : Nat) : State :=
  if s.shows addr n then (s.passed ((List.range n).map fun i => s.byteNow (s.sourceAt addr i))).publishWaiting
  else s.passed ((List.range n).map fun i => s.byteNow (s.sourceAt addr i))

section
variable (s : State) (addr n : Nat)

theorem State.afterRead_counters : (s.afterRead addr n).counters = s.counters := by
  unfold State.afterRead
  split
  · exact State.publishWaiting_counters _
  · rfl

theorem State.afterRead_watches : (s.afterRead addr n).watches = s.watches := by
  unfold State.afterRead
  split
  · exact State.publishWaiting_watches _
  · rfl

theorem State.afterRead_conds : (s.afterRead addr n).conds = s.conds := by
  unfold State.afterRead
  split
  · exact State.publishWaiting_conds _
  · rfl

theorem State.afterRead_raise (r : Report) : ((s.afterRead addr n).raise r).conds = (s.raise r).conds := by
  have passed : ∀ sv, ((s.passed sv).raise r).conds = (s.raise r).conds := fun sv =>
    State.raise_conds_congr (s := s) (u := s.passed sv) rfl rfl rfl r
  unfold State.afterRead
  split
  · exact (State.publishWaiting_raise _ r).trans (passed _)
  · exact passed _

theorem State.afterRead_windowOf (a : Nat) : (s.afterRead addr n).windowOf a = s.windowOf a := by
  have same : (s.afterRead addr n).mode = s.mode ∧ (s.afterRead addr n).layout = s.layout := by
    unfold State.afterRead
    split
    · exact ⟨State.publishWaiting_mode _, State.publishWaiting_layout _⟩
    · exact ⟨rfl, rfl⟩
  rw [State.windowOf, State.windowOf, same.1, same.2]

end

/-- A report changes the queue alone, and by the queue, the session and the mode alone. -/
theorem State.raise_as {s u : State} (conds : u.conds = s.conds) (session : u.session = s.session) (mode : u.mode = s.mode)
    (r : Report) : u.raise r = { u with conds := (s.raise r).conds } := by
  rw [← State.raise_conds_congr conds session mode r]
  exact u.raise_eq r

/-- What the end of a read counts and reports. -/
theorem State.endRead_eq {s : State} {t : Txn} {addr : Address} (command : t.command = .read ∨ t.command = .fastRead)
    (sent : t.addr = addr.toNat) : s.endRead t = { s with
      counters := modifyAt s.counters (s.windowOf t.addr).index CounterSet.addRead
      watches := s.watches.map fun w => w.countRead addr t.overlayGen
      conds := match t.firstFilled with
        | some a => (s.raise { cls := .collision, address := some (sectorOf a) }).conds
        | none => s.conds } := by
  have watched : (fun w : Watch => w.countTxn t) = fun w => w.countRead addr t.overlayGen :=
    funext (Watch.countTxn_read command sent)
  unfold State.endRead
  rw [State.countWatches, watched]
  cases t.firstFilled with
  | none => rfl
  | some a =>
    exact State.raise_as (s := s) (by rfl) (by rfl) (by rfl) _

/-- A whole READ or FAST READ on a free lane. -/
theorem State.lane_read {s : State} (free : s.laneFree = true) (addr : Address) (n : Nat) {c : LaneCommand}
    (command : c = .read ∨ c = .fastRead) : s.lane .whole c addr.toNat (fun x => x.serveBytes n) = { s.afterRead addr.toNat n with
      counters := modifyAt s.counters (s.windowOf addr.toNat).index CounterSet.addRead
      watches := s.watches.map fun w =>
        w.countRead addr (if s.shows addr.toNat n then some s.grid.generation else none)
      conds := match s.fills addr.toNat n with
        | some a => (s.raise { cls := .collision, address := some (sectorOf a) }).conds
        | none => s.conds } := by
  have passing : (s.treatmentOf c addr.toNat s.occupied).withholds = false := by
    rcases command with rfl | rfl <;> rfl
  have ends : ∀ (x : State) (t : Txn), t.command = c → x.endTxn t = x.endRead t := by
    rintro x t rfl
    unfold State.endTxn
    rcases command with h | h <;> rw [h]
  obtain ⟨pages, -, read⟩ := State.serveBytes_whole free c addr.toNat n
  have unheld : { s.grid with hold := false } = s.grid := by
    rw [← ((State.laneFree_iff s).mp free).2.2.2]
  rw [State.lane_free free, State.select_passing free passing, read]
  have released : State.releasePanel { s.reading c addr.toNat n ((List.range n).map fun i => s.byteNow (s.sourceAt addr.toNat i))
      (s.shows addr.toNat n) (s.fills addr.toNat n) pages with upstream := none } = s.afterRead addr.toNat n := by
    have passed : ∀ sv, { s.passed sv with grid := { s.grid with hold := false } } = s.passed sv := fun sv => by
      rw [unheld]
      rfl
    rw [State.afterRead, ← passed]
    cases s.shows addr.toNat n <;> rfl
  have gone : (s.reading c addr.toNat n ((List.range n).map fun i => s.byteNow (s.sourceAt addr.toNat i))
      (s.shows addr.toNat n) (s.fills addr.toNat n) pages).deselect = State.endRead (s.afterRead addr.toNat n) _ :=
    (congrArg (fun x : State => x.endTxn _) released).trans (ends _ _ rfl)
  rw [gone, State.endRead_eq (addr := addr) command rfl, State.afterRead_counters, State.afterRead_windowOf, State.afterRead_watches]
  have first :
      (match s.fills addr.toNat n with
        | some a => ((s.afterRead addr.toNat n).raise { cls := .collision, address := some (sectorOf a) }).conds
        | none => (s.afterRead addr.toNat n).conds) =
      match s.fills addr.toNat n with
        | some a => (s.raise { cls := .collision, address := some (sectorOf a) }).conds
        | none => s.conds := by
    cases s.fills addr.toNat n with
    | none => exact State.afterRead_conds s _ n
    | some a => exact State.afterRead_raise s _ n _
  exact congrArg (fun q => { s.afterRead addr.toNat n with
      counters := modifyAt s.counters (s.windowOf addr.toNat).index CounterSet.addRead
      watches := s.watches.map fun w : Watch => w.countRead addr (if s.shows addr.toNat n then some s.grid.generation else none)
      conds := q }) first

theorem Watch.countRead_shown (w : Watch) (addr : Address) (shown : Bool) (gen : Nat) :
    w.countRead addr (if shown then some gen else none) =
      if (w.kind = .read ∨ w.kind = .both) ∧ addr &&& w.mask = w.base &&& w.mask then
        { w with count := satSucc 65535 w.count, lastGen := if shown = true then gen else w.lastGen }
      else w := by
  cases shown <;> rfl

/-- The bytes of a whole read inside an occupied period and outside. -/
theorem State.afterRead_occupied {s : State} (occupied : s.occupied = true) (addr n : Nat) : s.afterRead addr n =
    if s.shows addr n = true then
      (s.passed ((List.range n).map fun i => s.sourceByteOccupied (s.sourceAt addr i))).publishWaiting
    else s.passed ((List.range n).map fun i => s.sourceByteOccupied (s.sourceAt addr i)) := by
  simp only [State.afterRead, State.byteNow, if_pos occupied]

theorem State.afterRead_free {s : State} (idle : s.occupied = false) (addr n : Nat) : s.afterRead addr n =
    if s.shows addr n = true then (s.passed ((List.range n).map fun i => s.sourceByte (s.sourceAt addr i))).publishWaiting
    else s.passed ((List.range n).map fun i => s.sourceByte (s.sourceAt addr i)) := by
  simp only [State.afterRead, State.byteNow, idle, Bool.false_eq_true, if_false]

/-- A READ and a FAST READ are the same read. -/
theorem exec_read {addr : Address} {n : Nat} {c : Instr} (command : c ∈ [Instr.read .whole addr n, Instr.fastRead .whole addr n])
    {s : State} (free : s.laneFree = true) : exec c s = .next (State.settle { s.afterRead addr.toNat n with
      counters := modifyAt s.counters (s.windowOf addr.toNat).index CounterSet.addRead
      watches := s.watches.map fun w => w.countRead addr (if s.shows addr.toNat n then some s.grid.generation else none)
      conds := match s.fills addr.toNat n with
        | some a => (s.raise { cls := .collision, address := some (sectorOf a) }).conds
        | none => s.conds }) := by
  simp only [List.mem_cons, List.not_mem_nil, or_false] at command
  rcases command with rfl | rfl
  · exact congrArg (fun x : State => Host.Outcome.next x.settle) (State.lane_read free addr n (.inl rfl))
  · exact congrArg (fun x : State => Host.Outcome.next x.settle) (State.lane_read free addr n (.inr rfl))

/-- Settles O29: each byte is followed by its source; the first from the flash is the one that is filled. -/
theorem occupiedReadsFillAndCollide : Obligations.OccupiedReadsFillAndCollide := by
  refine ⟨?reads, ?sources⟩
  case reads =>
    intro addr n s free occupied c hc shown p u
    refine ⟨(congrArg State.seq (State.cutRead_occupied occupied) :), (exec_read hc free).trans ?_⟩
    have filled : s.fills addr.toNat n = _ := if_pos occupied
    rw [State.afterRead_occupied occupied, filled, funext fun w => Watch.countRead_shown w addr (s.shows addr.toNat n) _]
    cases (List.range n).find? (fun i => (s.sourceAt addr.toNat i).isFlash) <;> rfl
  case sources =>
    intro s addr i a presented
    refine ⟨fun h => State.source_free h _ a, fun l mode layout valid => (State.source_layout mode layout valid _ a).trans ?_⟩
    cases s.region.selected <;> rfl

/-! ## The staged payload (R37, R157) -/

/-- The state with another staged payload. -/
def State.restage (s : State) (p : List Byte) : State := { s with staging := { s.staging with payload := p } }

theorem State.serveByte_restage (s : State) (p : List Byte) : (s.restage p).serveByte = s.serveByte.restage p := by
  have source : ∀ slot a, (s.restage p).source slot a = s.source slot a := fun _ _ => rfl
  have page : ∀ n, (s.restage p).responsePage n = s.responsePage n := fun _ => rfl
  have same : (s.restage p).upstream = s.upstream := rfl
  unfold State.serveByte
  simp only [source, page, same]
  cases s.upstream with
  | none => rfl
  | some t =>
    dsimp only
    split
    · rfl
    · cases s.source t.remapSlot ((t.addr + t.served) % flashSize) with
      | flash x => dsimp only; split <;> rfl
      | overlay o => rfl
      | page n o => dsimp only; split <;> rfl

theorem State.serveBytes_restage (n : Nat) (s : State) (p : List Byte) : (s.restage p).serveBytes n = (s.serveBytes n).restage p := by
  induction n generalizing s with
  | zero => rfl
  | succ n ih => rw [State.serveBytes, State.serveByte_restage, ih, State.serveBytes]

theorem State.select_restage (s : State) (p : List Byte) (c : LaneCommand) (a : Nat) :
    (s.restage p).select c a = (s.select c a).restage p := by
  have treatment : ∀ occ, (s.restage p).treatmentOf c a occ = s.treatmentOf c a occ := fun _ => rfl
  have occupied : (s.restage p).occupied = s.occupied := rfl
  have ignored : (s.restage p).laneIgnored = s.laneIgnored := rfl
  unfold State.select
  simp only [treatment, occupied, ignored]
  split_ifs <;> rfl

/-- The end of a transaction serves no byte. -/
theorem State.deselect_serves (s : State) : s.deselect.served = s.served := by
  cases carried : s.upstream with
  | none => rw [State.deselect_idle carried]
  | some t =>
    refine State.deselect_keeps (P := fun x => x.served = s.served) carried (fun _ => rfl) fun _ => ?_
    exact State.endTxn_keeps (P := fun x => x.served = s.served) (fun _ _ _ _ h => h) (fun _ h => h)
      (fun x r h => (x.raise_served r).trans h) (fun _ _ h => h) (fun x a h => by rw [State.forgetProfile_eq]; exact h)
      (fun _ x h => by rw [State.flashTakes_eq]; exact h)
      (fun _ x h => (congrArg State.served (x.outer_takeProgram _ _)).trans h) (State.releasePanel_served _)

/-- The bytes a read's part serves do not hang on the payload. -/
theorem State.lane_restage (sp : Span) (c : LaneCommand) (a n : Nat) (s : State) (p : List Byte) :
    ((s.restage p).lane sp c a fun x => x.serveBytes n).served = (s.lane sp c a fun x => x.serveBytes n).served := by
  have upstream : (s.restage p).upstream = s.upstream := rfl
  have carries : (s.restage p).carries c = s.carries c := rfl
  have passed : ((s.restage p).serveBytes n).served = (s.serveBytes n).served := by
    rw [State.serveBytes_restage]
    rfl
  have begun : (((s.restage p).select c a).serveBytes n).served = ((s.select c a).serveBytes n).served := by
    rw [State.select_restage, State.serveBytes_restage]
    rfl
  cases sp with
  | whole | opens =>
    simp only [State.lane, upstream]
    split
    · simpa only [State.deselect_serves] using begun
    · rfl
  | more | closes =>
    simp only [State.lane, carries]
    split
    · simpa only [State.deselect_serves] using passed
    · rfl

/-- Settles O16: a byte's source and value do not read the payload, and the deselect serves nothing. -/
theorem noReadShowsTheStagedPayload : Obligations.NoReadShowsTheStagedPayload := by
  intro sp a n p s c hc
  simp only [List.mem_cons, List.not_mem_nil, or_false] at hc
  rcases hc with rfl | rfl
  · exact ⟨_, _, rfl, rfl, State.lane_restage sp .read a.toNat n s p⟩
  · exact ⟨_, _, rfl, rfl, State.lane_restage sp .fastRead a.toNat n s p⟩

end Sys2Proof.Machine
end

section
/-! Bytes laid out one behind another (00 §4): fields, parts of a list, entries of one size, padding, marks; and the response
pages' fields (R35 to R38, 03 §3.6); the statement O27. -/

namespace Sys2Proof.Machine

/-! ## Fields and parts of a list -/

theorem le_length (n v : Nat) : (le n v).length = n := by
  induction n generalizing v with
  | zero => rfl
  | succ n ih => rw [le, List.length_cons, ih]

theorem unle_le (n v : Nat) : unle (le n v) = v % 256 ^ n := by
  induction n generalizing v with
  | zero => rw [Nat.pow_zero, Nat.mod_one]; rfl
  | succ n ih =>
    have low : (BitVec.ofNat 8 v).toNat = v % 256 := rfl
    rw [le, unle, ih, low, Nat.pow_succ, Nat.mul_comm (256 ^ n), Nat.mod_mul]

section
variable {α : Type} {l a b : List α} {off n : Nat}

theorem slice_length (inside : off + n ≤ l.length) : (slice l off n).length = n := by
  simp only [slice, List.length_take, List.length_drop]
  omega

theorem slice_left (inside : off + n ≤ a.length) : slice (a ++ b) off n = slice a off n := by
  rw [slice, slice, List.drop_append_of_le_length (by omega), List.take_append_of_le_length (by simp only [List.length_drop]; omega)]

theorem slice_right (beyond : a.length ≤ off) : slice (a ++ b) off n = slice b (off - a.length) n := by
  rw [slice, slice, List.drop_append, List.drop_eq_nil_of_le beyond, List.nil_append]

/-- A part of a part. -/
theorem slice_slice (l : List α) {off n b m : Nat} (inside : b + m ≤ n) : slice (slice l off n) b m = slice l (off + b) m := by
  simp only [slice, List.drop_take, List.take_take, List.drop_drop]
  rw [Nat.min_eq_left (by omega)]

theorem getD_slice (l : List α) (d : α) {off n b : Nat} (inside : b < n) : (slice l off n).getD b d = l.getD (off + b) d := by
  simp only [slice, List.getD_eq_getElem?_getD, List.getElem?_take_of_lt inside, List.getElem?_drop]

/-- Entries of one size stand at the multiples of it. -/
theorem slice_flatten {β : Type} {f : β → List α} {c : Nat} (size : ∀ x, (f x).length = c) (rest : List α) {xs : List β} {i : Nat}
    {x : β} (entry : xs[i]? = some x) : slice ((xs.map f).flatten ++ rest) (c * i) c = f x := by
  induction xs generalizing i with
  | nil => cases entry
  | cons y t ih =>
    rw [List.map_cons, List.flatten_cons, List.append_assoc]
    cases i with
    | zero =>
      obtain rfl : y = x := Option.some.inj entry
      rw [Nat.mul_zero, slice_left (by rw [size, Nat.zero_add]), ← size y, slice, List.drop_zero, List.take_length]
    | succ i =>
      rw [slice_right (by rw [size, Nat.mul_succ]; omega), size, Nat.mul_succ, Nat.add_sub_cancel]
      exact ih entry

theorem length_flatten_map {β : Type} {f : β → List α} {c : Nat} (size : ∀ x, (f x).length = c) (xs : List β) :
    ((xs.map f).flatten).length = c * xs.length := by
  induction xs with
  | nil => rfl
  | cons y t ih => rw [List.map_cons, List.flatten_cons, List.length_append, ih, size, List.length_cons, Nat.mul_succ, Nat.add_comm]

theorem padTo_length (n : Nat) (fill : α) (l : List α) : (padTo n fill l).length = n := by
  simp only [padTo, List.length_append, List.length_take, List.length_replicate]
  omega

theorem padTo_of_le {fill : α} (short : l.length ≤ n) : padTo n fill l = l ++ List.replicate (n - l.length) fill := by
  rw [padTo, List.take_of_length_le short]

end

section
variable {l m : List Byte} {off N : Nat}

/-- What a part of a list says of the list's fields. -/
theorem fieldAt_within (part : slice l off N = m) {k b n : Nat} (place : k = off + b) (inside : b + n ≤ N) :
    fieldAt l k n = fieldAt m b n := by
  rw [fieldAt, fieldAt, ← part, slice_slice l inside, place]

theorem getD_within (part : slice l off N = m) {k b : Nat} (place : k = off + b) (inside : b < N) :
    l.getD k 0 = m.getD b 0 := by
  rw [← part, getD_slice l 0 inside, place]

theorem byteAt_within (part : slice l off N = m) {k b : Nat} (place : k = off + b) (inside : b < N) :
    byteAt l k = byteAt m b := congrArg BitVec.toNat (getD_within part place inside)

/-- A field that stands where its bytes were put. -/
theorem fieldAt_le (n v : Nat) (part : slice l off n = le n v) : fieldAt l off n = v % 256 ^ n := by
  rw [fieldAt, part, unle_le]

theorem byteAt_beyond {i : Nat} (beyond : l.length ≤ i) : byteAt l i = 0 := by
  rw [byteAt, List.getD_eq_getElem?_getD, List.getElem?_eq_none beyond]
  rfl

/-- Behind its content a padded list reads 0. -/
theorem byteAt_padTo {n i : Nat} (beyond : l.length ≤ i) : byteAt (padTo n 0 l) i = 0 := by
  rw [byteAt, padTo, List.getD_eq_getElem?_getD, List.getElem?_append_right (by rw [List.length_take]; omega), List.getElem?_replicate]
  split <;> rfl

end

/-- The i-th mark of a byte of marks. -/
theorem bitsByte_getLsbD (bs : List Bool) {i : Nat} (hi : i < 8) : (bitsByte bs).getLsbD i = bs.getD i false := by
  rw [bitsByte, BitVec.getLsbD_ofNat, decide_eq_true hi, Bool.true_and]
  clear hi
  induction bs generalizing i with
  | nil => exact Nat.zero_testBit i
  | cons b t ih =>
    rw [List.foldr_cons]
    cases i with
    | zero => cases b <;> simp [Nat.testBit_zero]
    | succ i =>
      rw [Nat.testBit_succ, List.getD_cons_succ, ← ih]
      congr 1
      split <;> omega

theorem slice_padTo {α : Type} {fill : α} {l : List α} {N off n : Nat} (inside : off + n ≤ l.length) (fits : off + n ≤ N) :
    slice (padTo N fill l) off n = slice l off n := by
  rw [padTo, slice_left (by rw [List.length_take]; omega)]
  simp only [slice, List.drop_take, List.take_take]
  rw [Nat.min_eq_left (by omega)]

section
variable {l : List Byte} {i n : Nat}

theorem byteAt_byteOf (h : l.getD i 0 = byteOf n) : byteAt l i = n % 256 := congrArg BitVec.toNat h

theorem byteAt_code (h : l.getD i 0 = byteOf n) (small : n < 256) : byteAt l i = n :=
  (byteAt_byteOf h).trans (Nat.mod_eq_of_lt small)

theorem byteAt_flag {b : Bool} (h : l.getD i 0 = flagByte b) : byteAt l i = if b = true then 1 else 0 := by
  rw [byteAt, h]
  cases b <;> rfl

/-- The eight marks of a byte of marks. -/
theorem marks_bitsByte {b : Byte} {bs : List Bool} (h : b = bitsByte bs) :
    (List.range 8).map b.getLsbD = (List.range 8).map fun i => bs.getD i false := by
  rw [h]
  exact List.map_congr_left fun i hi => bitsByte_getLsbD bs (List.mem_range.mp hi)

end

/-! ## Codes fit one byte (03 §3.6) -/

theorem Mode.code_lt (x : Mode) : x.code < 256 := by cases x <;> decide
theorem SessionState.code_lt (x : SessionState) : x.code < 256 := by cases x <;> decide
theorem JobKind.code_lt (x : JobKind) : x.code < 256 := by cases x <;> decide
theorem FrameState.code_lt (x : FrameState) : x.code < 256 := by cases x <;> decide
theorem EngineState.code_lt (x : EngineState) : x.code < 256 := by cases x <;> decide
theorem JobOutcome.code_lt (x : JobOutcome) : x.code < 256 := by cases x <;> decide
theorem KeyState.code_lt (x : KeyState) : x.code < 256 := by cases x <;> decide
theorem StageState.code_lt (x : StageState) : x.code < 256 := by cases x <;> decide
theorem WatchKind.code_lt (x : WatchKind) : x.code < 256 := by cases x <;> decide
theorem ZoneClass.code_lt (x : ZoneClass) : x.code < 16 := by cases x <;> decide
theorem Result.code_lt (x : Result) : x.code < 256 := by cases x <;> decide
theorem CondClass.code_lt (x : CondClass) : x.code < 256 := by cases x <;> decide
theorem Plane.index_lt (x : Plane) : x.index < 256 := by cases x <;> decide

/-! ## The pages -/

theorem State.responsePage_length (s : State) (n : Nat) : (s.responsePage n).length = 256 := padTo_length _ _ _

theorem State.responsePage_map (s : State) {n : Nat} (beyond : 8 ≤ n) :
    s.responsePage n = padTo 256 0 (if 16 ≤ n ∧ n ≤ 33 then s.mapPage n else []) := by
  match n, beyond with
  | k + 8, _ => rfl

/-- The elapsed seconds stop at the largest number of four bytes (R25). -/
theorem Session.elapsed_eq (n : Session) : ((n.elapsed % 256 ^ 4 : Nat) : Int) = if n.timeValid = true then
    min 4294967295 (max 0 (((n.day : Int) - n.openDay) % 65536 * 86400 + n.seconds - n.openSeconds)) else 0 := by
  unfold Session.elapsed
  split_ifs <;> omega

/-- The fields of the status page (R36). -/
theorem State.statusPage_fields (s : State) :
    let p := s.responsePage 0
    byteAt p 0 = s.mode.code ∧ byteAt p 1 = s.session.state.code ∧ p.getD 2 0 = s.intake.lastTag ∧
    byteAt p 3 = s.intake.lastResult.code ∧ fieldAt p 4 2 = s.intake.recordCount % 65536 ∧
    byteAt p 6 = (match s.seq.active with | some a => a.job.kind.code | none => 0) ∧
    byteAt p 7 = (if s.jobPaused = true then 1 else 0) ∧ byteAt p 8 = s.seq.waiting.length % 256 ∧
    byteAt p 9 = s.frame0.state.code ∧ byteAt p 10 = s.frame1.state.code ∧ byteAt p 11 = s.engine.state.code ∧
    fieldAt p 12 4 = s.grid.generation % 4294967296 ∧ fieldAt p 16 4 = (s.uniGen?.getD 0) % 4294967296 ∧
    fieldAt p 20 4 = (s.parkGen?.getD 0) % 4294967296 ∧
    fieldAt p 24 4 = (match s.latest with | some x => x.record.ringGen | none => 0) % 4294967296 ∧
    (List.range 8).map (p.getD 28 0).getLsbD =
      [s.clean, s.unsaved, s.grid.geometry.isSome, s.grid.lock.isSome, s.session.timeValid, s.closedFlag,
       s.session.publishSeen, false] ∧
    byteAt p 29 = s.history.stack.length % 256 ∧ fieldAt p 30 2 = s.history.truncated % 65536 ∧
    byteAt p 32 = s.conds.records.length % 256 ∧ byteAt p 33 = s.intake.closeOutIndex % 256 ∧
    fieldAt p 34 2 = s.session.day % 65536 ∧ fieldAt p 36 4 = s.session.seconds % 4294967296 ∧
    (fieldAt p 40 4 : Int) = (if s.session.timeValid = true then
        min 4294967295 (max 0 (((s.session.day : Int) - s.session.openDay) % 65536 * 86400 + s.session.seconds
          - s.session.openSeconds))
      else 0) ∧
    byteAt p 44 = (match s.region.selected with | some r => r.slot % 256 | none => 0xFF) ∧
    byteAt p 45 = (match s.region.selected with | some r => r.id % 256 | none => 0) ∧
    byteAt p 46 = s.session.station % 256 ∧ ∀ i, 47 ≤ i → byteAt p i = 0 := by
  intro p
  have page : p = padTo 256 0 s.statusPage := rfl
  have kind : (match s.seq.active with | some a => a.job.kind.code | none => 0) < 256 := by
    cases s.seq.active with
    | none => decide
    | some a => exact a.job.kind.code_lt
  have length : s.statusPage.length = 47 := by
    simp only [State.statusPage, List.length_append, le_length, List.length_cons, List.length_nil]
    cases s.region.selected <;> rfl
  have behind : ∀ i, 47 ≤ i → byteAt p i = 0 := fun i hi =>
    byteAt_padTo (l := s.statusPage) (by rw [length]; exact hi)
  obtain ⟨l, hl⟩ : ∃ l, l = s.statusPage := ⟨_, rfl⟩
  rw [padTo_of_le (by omega), length, ← hl] at page
  cases region : s.region.selected
  all_goals
    simp only [State.statusPage, region, le, List.cons_append, List.nil_append] at hl
    rw [hl] at page
    clear_value p
    subst page
    refine ⟨byteAt_code rfl s.mode.code_lt, byteAt_code rfl s.session.state.code_lt, rfl, byteAt_code rfl s.intake.lastResult.code_lt,
      fieldAt_le 2 _ rfl, byteAt_code rfl kind, byteAt_flag rfl, byteAt_byteOf rfl, byteAt_code rfl s.frame0.state.code_lt,
      byteAt_code rfl s.frame1.state.code_lt, byteAt_code rfl s.engine.state.code_lt, fieldAt_le 4 _ rfl, fieldAt_le 4 _ rfl,
      fieldAt_le 4 _ rfl, fieldAt_le 4 _ rfl, marks_bitsByte rfl, byteAt_byteOf rfl, fieldAt_le 2 _ rfl, byteAt_byteOf rfl,
      byteAt_byteOf rfl, fieldAt_le 2 _ rfl, fieldAt_le 4 _ rfl, ?_, rfl, rfl, byteAt_byteOf rfl, behind⟩
    rw [← s.session.elapsed_eq]
    exact congrArg Nat.cast (fieldAt_le 4 _ rfl)

/-- The entries of the outcome table (R37). -/
theorem State.outcomePage_fields (s : State) {e : Nat} {x : OutcomeEntry} (nine : s.intake.outcomes.length = 9)
    (entry : s.intake.outcomes[e]? = some x) :
    let p := s.responsePage 1
    p.getD (8 * e) 0 = x.tag ∧ byteAt p (8 * e + 1) = x.outcome.code ∧ byteAt p (8 * e + 2) = x.count % 256 ∧
    byteAt p (8 * e + 3) = 0 ∧ fieldAt p (8 * e + 4) 4 = x.ringGen % 4294967296 ∧ ∀ i, 72 ≤ i → byteAt p i = 0 := by
  intro p
  have inside : e < 9 := nine ▸ (List.getElem?_eq_some_iff.mp entry).1
  have size : ∀ x : OutcomeEntry, ([x.tag, byteOf x.outcome.code, byteOf x.count, 0] ++ le 4 x.ringGen).length = 8 := fun _ => rfl
  have length : s.outcomePage.length = 72 := (length_flatten_map size _).trans (by rw [nine])
  have part : slice p (8 * e) 8 = [x.tag, byteOf x.outcome.code, byteOf x.count, 0] ++ le 4 x.ringGen := by
    refine (slice_padTo (l := s.outcomePage) (by omega) (by omega)).trans ?_
    have found := slice_flatten size [] entry
    rwa [List.append_nil] at found
  refine ⟨getD_within part (b := 0) rfl (by omega), ?_, ?_, ?_, ?_, fun i hi => byteAt_padTo (l := s.outcomePage) (by omega)⟩
  · exact (byteAt_within part rfl (by omega)).trans (byteAt_code rfl x.outcome.code_lt)
  · exact (byteAt_within part rfl (by omega)).trans (byteAt_byteOf rfl)
  · exact (byteAt_within part rfl (by omega)).trans rfl
  · exact (fieldAt_within part rfl (by omega)).trans (fieldAt_le 4 _ rfl)

theorem byteAt_zeros (n i : Nat) : byteAt (List.replicate n 0) i = 0 := by
  rw [byteAt, List.getD_eq_getElem?_getD, List.getElem?_replicate]
  split <;> rfl

/-- The fields of the solve report (R37). -/
theorem State.reportPage_fields (s : State) :
    let p := s.responsePage 2
    (s.report = none → ∀ i, byteAt p i = 0) ∧
    ∀ r, s.report = some r →
      p.getD 0 0 = r.tag ∧ byteAt p 1 = r.plane.index ∧ byteAt p 2 = r.rect.x0 % 256 ∧ byteAt p 3 = r.rect.y0 % 256 ∧
      byteAt p 4 = r.rect.w % 256 ∧ byteAt p 5 = r.rect.h % 256 ∧ fieldAt p 6 2 = r.unmeasured % 65536 ∧
      fieldAt p 8 2 = r.inBand % 65536 ∧ fieldAt p 10 2 = r.adjusted % 65536 ∧ fieldAt p 12 2 = r.partialMoves % 65536 ∧
      fieldAt p 14 2 = r.saturated % 65536 ∧ fieldAt p 16 4 = r.largest % 4294967296 ∧
      p.getD 20 0 = BitVec.ofInt 8 r.minCode ∧ p.getD 21 0 = BitVec.ofInt 8 r.maxCode ∧
      fieldAt p 22 4 = r.generation % 4294967296 ∧ byteAt p 26 = 1 ∧ ∀ i, 27 ≤ i → byteAt p i = 0 := by
  intro p
  have page : p = padTo 256 0 s.reportPage := rfl
  refine ⟨fun absent i => ?_, fun r report => ?_⟩
  · rw [page, byteAt_padTo]
    simp only [State.reportPage, absent, List.length_nil, Nat.zero_le]
  · have content : s.reportPage = [r.tag, byteOf r.plane.index, byteOf r.rect.x0, byteOf r.rect.y0, byteOf r.rect.w, byteOf r.rect.h]
        ++ le 2 r.unmeasured ++ le 2 r.inBand ++ le 2 r.adjusted ++ le 2 r.partialMoves ++ le 2 r.saturated
        ++ le 4 r.largest ++ [byteOfInt r.minCode, byteOfInt r.maxCode] ++ le 4 r.generation ++ [1] := by
      simp only [State.reportPage, report]
    simp only [le, List.cons_append, List.nil_append] at content
    have length : s.reportPage.length = 27 := by rw [content]; rfl
    have behind : ∀ i, 27 ≤ i → byteAt p i = 0 := fun i hi => byteAt_padTo (l := s.reportPage) (by omega)
    rw [padTo_of_le (by omega), length, content] at page
    clear_value p
    subst page
    exact ⟨rfl, byteAt_code rfl r.plane.index_lt, byteAt_byteOf rfl, byteAt_byteOf rfl, byteAt_byteOf rfl, byteAt_byteOf rfl,
      fieldAt_le 2 _ rfl, fieldAt_le 2 _ rfl, fieldAt_le 2 _ rfl, fieldAt_le 2 _ rfl, fieldAt_le 2 _ rfl, fieldAt_le 4 _ rfl, rfl, rfl,
      fieldAt_le 4 _ rfl, rfl, behind⟩

/-- The fields of the head condition record (R37). -/
theorem State.conditionPage_fields (s : State) :
    let p := s.responsePage 3
    (s.conds.records = [] → ∀ i, byteAt p i = 0) ∧
    ∀ r rest, s.conds.records = r :: rest →
      byteAt p 0 = (rest.length + 1) % 256 ∧ byteAt p 1 = 1 ∧ fieldAt p 2 2 = r.seq % 65536 ∧ byteAt p 4 = r.cls.code ∧
      (List.range 8).map (p.getD 5 0).getLsbD =
        [r.indirect, r.ancillary, r.overflow, r.parkNotQueued, false, false, false, false] ∧
      (List.range 8).map (p.getD 6 0).getLsbD =
        [r.address.isSome, r.slot.isSome, r.command.isSome, false, false, false, false, false] ∧
      fieldAt p 7 3 = (r.address.getD 0) % 16777216 ∧ byteAt p 10 = (r.slot.getD 0) % 256 ∧
      p.getD 11 0 = r.command.getD 0 ∧ byteAt p 12 = r.repeats % 256 ∧
      byteAt p 13 = (if r.timeValid = true then 1 else 0) ∧ fieldAt p 14 2 = r.day % 65536 ∧
      fieldAt p 16 4 = r.seconds % 4294967296 ∧ byteAt p 20 = r.mode.code ∧ ∀ i, 21 ≤ i → byteAt p i = 0 := by
  intro p
  have page : p = padTo 256 0 s.conditionPage := rfl
  refine ⟨fun empty i => ?_, fun r rest queue => ?_⟩
  · have zeros : p = List.replicate 256 0 := by
      rw [page]
      simp only [State.conditionPage, empty]
      rfl
    rw [zeros, byteAt_zeros]
  · have content : s.conditionPage = [byteOf (rest.length + 1), 1] ++ le 2 r.seq
        ++ [byteOf r.cls.code, bitsByte [r.indirect, r.ancillary, r.overflow, r.parkNotQueued],
            bitsByte [r.address.isSome, r.slot.isSome, r.command.isSome]]
        ++ le 3 (r.address.getD 0) ++ [byteOf (r.slot.getD 0), r.command.getD 0, byteOf r.repeats, flagByte r.timeValid]
        ++ le 2 r.day ++ le 4 r.seconds ++ [byteOf r.mode.code] := by
      simp only [State.conditionPage, queue, List.length_cons]
    simp only [le, List.cons_append, List.nil_append] at content
    have length : s.conditionPage.length = 21 := by rw [content]; rfl
    have behind : ∀ i, 21 ≤ i → byteAt p i = 0 := fun i hi => byteAt_padTo (l := s.conditionPage) (by omega)
    rw [padTo_of_le (by omega), length, content] at page
    clear_value p
    subst page
    exact ⟨byteAt_byteOf rfl, rfl, fieldAt_le 2 _ rfl, byteAt_code rfl r.cls.code_lt, marks_bitsByte rfl, marks_bitsByte rfl,
      fieldAt_le 3 _ rfl, byteAt_byteOf rfl, rfl, byteAt_byteOf rfl, byteAt_flag rfl, fieldAt_le 2 _ rfl, fieldAt_le 4 _ rfl,
      byteAt_code rfl r.mode.code_lt, behind⟩

/-- The entries of the history page (R99). -/
theorem State.historyPage_fields (s : State) :
    let p := s.responsePage 4
    byteAt p 0 = s.history.stack.length % 256 ∧ (∀ i, 1 ≤ i → i < 8 → byteAt p i = 0) ∧
    (∀ i, 8 + 8 * s.history.stack.length ≤ i → byteAt p i = 0) ∧
    ∀ i e, i < 8 → s.history.stack[i]? = some e →
      byteAt p (8 + 8 * i) = e.plane.index ∧ byteAt p (9 + 8 * i) = e.rect.x0 % 256 ∧
      byteAt p (10 + 8 * i) = e.rect.y0 % 256 ∧ byteAt p (11 + 8 * i) = e.rect.w % 256 ∧
      byteAt p (12 + 8 * i) = e.rect.h % 256 ∧ p.getD (13 + 8 * i) 0 = e.tag ∧
      fieldAt p (14 + 8 * i) 2 = (e.rect.w * e.rect.h + (e.rect.w * e.rect.h + 7) / 8) % 65536 := by
  intro p
  have size : ∀ e : HistoryEntry, ([byteOf e.plane.index, byteOf e.rect.x0, byteOf e.rect.y0, byteOf e.rect.w, byteOf e.rect.h, e.tag]
      ++ le 2 e.payload).length = 8 := fun _ => rfl
  have length : s.historyPage.length = 8 + 8 * s.history.stack.length := by
    rw [State.historyPage, List.length_append, length_flatten_map size]
    rfl
  have head : slice p 0 8 = [byteOf s.history.stack.length, 0, 0, 0, 0, 0, 0, 0] :=
    (slice_padTo (l := s.historyPage) (by omega) (by omega)).trans (slice_left (Nat.le_refl 8))
  refine ⟨(byteAt_within head (b := 0) rfl (by omega)).trans (byteAt_byteOf rfl), fun i low high => ?_,
    fun i hi => byteAt_padTo (l := s.historyPage) (by omega), fun i e hi entry => ?_⟩
  · rw [byteAt_within head (b := i) (by omega) high]
    interval_cases i <;> rfl
  · have inside := (List.getElem?_eq_some_iff.mp entry).1
    have part : slice p (8 + 8 * i) 8 = [byteOf e.plane.index, byteOf e.rect.x0, byteOf e.rect.y0, byteOf e.rect.w, byteOf e.rect.h,
        e.tag] ++ le 2 e.payload := by
      refine (slice_padTo (l := s.historyPage) (by omega) (by omega)).trans ?_
      refine (slice_right (by simp)).trans ?_
      have found := slice_flatten size [] entry
      rw [List.append_nil] at found
      rw [← found]
      congr 1
      simp
    refine ⟨?_, ?_, ?_, ?_, ?_, ?_, ?_⟩
    · exact (byteAt_within part (b := 0) (by omega) (by omega)).trans (byteAt_code rfl e.plane.index_lt)
    · exact (byteAt_within part (b := 1) (by omega) (by omega)).trans (byteAt_byteOf rfl)
    · exact (byteAt_within part (b := 2) (by omega) (by omega)).trans (byteAt_byteOf rfl)
    · exact (byteAt_within part (b := 3) (by omega) (by omega)).trans (byteAt_byteOf rfl)
    · exact (byteAt_within part (b := 4) (by omega) (by omega)).trans (byteAt_byteOf rfl)
    · exact getD_within part (b := 5) (by omega) (by omega)
    · exact (fieldAt_within part (b := 6) (by omega) (by omega)).trans (fieldAt_le 2 _ rfl)

/-- The Key Slot Table and the staging buffer's state (R37). -/
theorem State.keyPage_fields (s : State) (sixteen : s.keys.length = 16) :
    let p := s.responsePage 5
    (∀ i k, s.keys[i]? = some k →
      byteAt p (12 * i) = k.state.code ∧ byteAt p (12 * i + 1) = k.cls % 256 ∧
      fieldAt p (12 * i + 2) 2 = k.length % 65536 ∧ byteAt p (12 * i + 4) = k.station % 256 ∧
      byteAt p (12 * i + 5) = 0 ∧ fieldAt p (12 * i + 6) 2 = k.day % 65536 ∧
      fieldAt p (12 * i + 8) 4 = k.seconds % 4294967296) ∧
    byteAt p 192 = s.staging.state.code ∧ byteAt p 193 = s.staging.slot % 256 ∧ byteAt p 194 = s.staging.cls % 256 ∧
    byteAt p 195 = 0 ∧ fieldAt p 196 2 = s.staging.total % 65536 ∧ fieldAt p 198 2 = s.staging.filled % 65536 ∧
    ∀ i, 200 ≤ i → byteAt p i = 0 := by
  intro p
  have size : ∀ k : KeyEntry, ([byteOf k.state.code, byteOf k.cls] ++ le 2 k.length ++ [byteOf k.station, 0] ++ le 2 k.day
      ++ le 4 k.seconds).length = 12 := fun _ => rfl
  have table := (length_flatten_map size s.keys).trans (by rw [sixteen])
  have content : s.keyPage = (s.keys.map fun k => [byteOf k.state.code, byteOf k.cls] ++ le 2 k.length ++ [byteOf k.station, 0]
      ++ le 2 k.day ++ le 4 k.seconds).flatten
      ++ ([byteOf s.staging.state.code, byteOf s.staging.slot, byteOf s.staging.cls, 0] ++ le 2 s.staging.total
      ++ le 2 s.staging.filled) := by
    rw [State.keyPage, padTo_of_le (by omega), table]
    simp only [Nat.reduceMul, Nat.sub_self, List.replicate_zero, List.append_nil, List.append_assoc]
  have length : s.keyPage.length = 200 := by
    rw [content, List.length_append, table]
    rfl
  have staging : slice p 192 8 = [byteOf s.staging.state.code, byteOf s.staging.slot, byteOf s.staging.cls, 0]
      ++ le 2 s.staging.total ++ le 2 s.staging.filled := by
    refine (slice_padTo (l := s.keyPage) (by omega) (by omega)).trans ?_
    rw [content, slice_right (by omega), table]
    rfl
  refine ⟨fun i k entry => ?_, ?_, ?_, ?_, ?_, ?_, ?_, fun i hi => byteAt_padTo (l := s.keyPage) (by omega)⟩
  · have inside := (List.getElem?_eq_some_iff.mp entry).1
    have part : slice p (12 * i) 12 = [byteOf k.state.code, byteOf k.cls] ++ le 2 k.length ++ [byteOf k.station, 0] ++ le 2 k.day
        ++ le 4 k.seconds := by
      refine (slice_padTo (l := s.keyPage) (by omega) (by omega)).trans ?_
      rw [content]
      exact slice_flatten size _ entry
    refine ⟨?_, ?_, ?_, ?_, ?_, ?_, ?_⟩
    · exact (byteAt_within part (b := 0) rfl (by omega)).trans (byteAt_code rfl k.state.code_lt)
    · exact (byteAt_within part rfl (by omega)).trans (byteAt_byteOf rfl)
    · exact (fieldAt_within part rfl (by omega)).trans (fieldAt_le 2 _ rfl)
    · exact (byteAt_within part rfl (by omega)).trans (byteAt_byteOf rfl)
    · exact (byteAt_within part rfl (by omega)).trans rfl
    · exact (fieldAt_within part rfl (by omega)).trans (fieldAt_le 2 _ rfl)
    · exact (fieldAt_within part rfl (by omega)).trans (fieldAt_le 4 _ rfl)
  · exact (byteAt_within staging (b := 0) rfl (by omega)).trans (byteAt_code rfl s.staging.state.code_lt)
  · exact (byteAt_within staging (b := 1) rfl (by omega)).trans (byteAt_byteOf rfl)
  · exact (byteAt_within staging (b := 2) rfl (by omega)).trans (byteAt_byteOf rfl)
  · exact (byteAt_within staging (b := 3) rfl (by omega)).trans rfl
  · exact (fieldAt_within staging (b := 4) rfl (by omega)).trans (fieldAt_le 2 _ rfl)
  · exact (fieldAt_within staging (b := 6) rfl (by omega)).trans (fieldAt_le 2 _ rfl)

/-- The window counters and the watch monitors (R37). -/
theorem State.counterPage_fields (s : State) (ten : s.counters.length = 10) (four : s.watches.length = 4) :
    let p := s.responsePage 6
    (∀ j c, s.counters[j]? = some c →
      fieldAt p (6 * j) 2 = c.reads % 65536 ∧ fieldAt p (6 * j + 2) 2 = c.writes % 65536 ∧
      fieldAt p (6 * j + 4) 2 = c.withheld % 65536) ∧
    (∀ j w, s.watches[j]? = some w →
      byteAt p (64 + 16 * j) = w.kind.code ∧ byteAt p (65 + 16 * j) = 0 ∧ fieldAt p (66 + 16 * j) 3 = w.base.toNat ∧
      fieldAt p (69 + 16 * j) 3 = w.mask.toNat ∧ fieldAt p (72 + 16 * j) 2 = w.count % 65536 ∧
      fieldAt p (74 + 16 * j) 4 = w.lastGen % 4294967296 ∧ fieldAt p (78 + 16 * j) 2 = 0) ∧
    (∀ i, 60 ≤ i → i < 64 → byteAt p i = 0) ∧ ∀ i, 128 ≤ i → byteAt p i = 0 := by
  intro p
  have counterSize : ∀ c : CounterSet, (le 2 c.reads ++ le 2 c.writes ++ le 2 c.withheld).length = 6 := fun _ => rfl
  have watchSize : ∀ w : Watch, ([byteOf w.kind.code, 0] ++ le 3 w.base.toNat ++ le 3 w.mask.toNat ++ le 2 w.count ++ le 4 w.lastGen
      ++ [0, 0]).length = 16 := fun _ => rfl
  have counters := (length_flatten_map counterSize s.counters).trans (by rw [ten])
  have watches := (length_flatten_map watchSize s.watches).trans (by rw [four])
  have content : s.counterPage = (s.counters.map fun c => le 2 c.reads ++ le 2 c.writes ++ le 2 c.withheld).flatten ++ ([0, 0, 0, 0]
      ++ (s.watches.map fun w => [byteOf w.kind.code, 0] ++ le 3 w.base.toNat ++ le 3 w.mask.toNat ++ le 2 w.count ++ le 4 w.lastGen
        ++ [0, 0]).flatten) := by
    rw [State.counterPage, padTo_of_le (by omega), counters, List.append_assoc]
    rfl
  have length : s.counterPage.length = 128 := by
    rw [content, List.length_append, List.length_append, counters, watches]
    rfl
  refine ⟨fun j c entry => ?_, fun j w entry => ?_, fun i low high => ?_, fun i hi => byteAt_padTo (l := s.counterPage) (by omega)⟩
  · have inside := (List.getElem?_eq_some_iff.mp entry).1
    have part : slice p (6 * j) 6 = le 2 c.reads ++ le 2 c.writes ++ le 2 c.withheld := by
      refine (slice_padTo (l := s.counterPage) (by omega) (by omega)).trans ?_
      rw [content]
      exact slice_flatten counterSize _ entry
    refine ⟨?_, ?_, ?_⟩
    · exact (fieldAt_within part (b := 0) rfl (by omega)).trans (fieldAt_le 2 _ rfl)
    · exact (fieldAt_within part rfl (by omega)).trans (fieldAt_le 2 _ rfl)
    · exact (fieldAt_within part rfl (by omega)).trans (fieldAt_le 2 _ rfl)
  · have inside := (List.getElem?_eq_some_iff.mp entry).1
    have part : slice p (64 + 16 * j) 16 = [byteOf w.kind.code, 0] ++ le 3 w.base.toNat ++ le 3 w.mask.toNat ++ le 2 w.count
        ++ le 4 w.lastGen ++ [0, 0] := by
      refine (slice_padTo (l := s.counterPage) (by omega) (by omega)).trans ?_
      rw [content, slice_right (by omega), counters, slice_right (by simp only [List.length_cons, List.length_nil]; omega)]
      have found := slice_flatten watchSize [] entry
      rw [List.append_nil] at found
      rw [← found]
      congr 1
      simp only [List.length_cons, List.length_nil]
      omega
    refine ⟨?_, ?_, ?_, ?_, ?_, ?_, ?_⟩
    · exact (byteAt_within part (b := 0) (by omega) (by omega)).trans (byteAt_code rfl w.kind.code_lt)
    · exact (byteAt_within part (b := 1) (by omega) (by omega)).trans rfl
    · exact (fieldAt_within part (b := 2) (by omega) (by omega)).trans ((fieldAt_le 3 _ rfl).trans (Nat.mod_eq_of_lt w.base.isLt))
    · exact (fieldAt_within part (b := 5) (by omega) (by omega)).trans ((fieldAt_le 3 _ rfl).trans (Nat.mod_eq_of_lt w.mask.isLt))
    · exact (fieldAt_within part (b := 8) (by omega) (by omega)).trans (fieldAt_le 2 _ rfl)
    · exact (fieldAt_within part (b := 10) (by omega) (by omega)).trans (fieldAt_le 4 _ rfl)
    · exact (fieldAt_within part (b := 14) (by omega) (by omega)).trans rfl
  · have part : slice p 60 4 = [0, 0, 0, 0] := by
      refine (slice_padTo (l := s.counterPage) (by omega) (by omega)).trans ?_
      rw [content, slice_right (by omega), counters]
      exact slice_left (Nat.le_refl 4)
    rw [byteAt_within part (b := i - 60) (by omega) (by omega)]
    interval_cases i <;> rfl

/-- The region page's two parts, before its reason (R37, R169). -/
theorem State.regionPage_parts (s : State) : ∃ head classes : List Byte, head.length = 5 ∧ classes.length = 9 ∧
    s.regionPage = head ++ (classes ++ [byteOf s.region.reason]) ∧
    (s.region.selected = none → head = [0, 0xFF, 0] ++ le 2 256) ∧
    (∀ r, s.region.selected = some r → head = [1, byteOf r.slot, byteOf r.id] ++ le 2 r.scale) ∧
    (s.region.classes = none → classes = 0xFF :: List.replicate 8 0) ∧
    ∀ cs, s.region.classes = some cs → classes = byteOf cs.length :: padTo 8 0 (cs.map byteOf) := by
  unfold State.regionPage
  cases s.region.selected <;> cases s.region.classes
  all_goals
    refine ⟨_, _, ?_, ?_, List.append_assoc _ _ _, ?_⟩
    · rfl
    · simp [padTo_length]
    · simp

/-- The region page (R37, R169). -/
theorem State.regionPage_fields (s : State) :
    let p := s.responsePage 7
    (s.region.selected = none → byteAt p 0 = 0 ∧ byteAt p 1 = 0xFF ∧ byteAt p 2 = 0 ∧ fieldAt p 3 2 = 256) ∧
    (∀ r, s.region.selected = some r → byteAt p 0 = 1 ∧ byteAt p 1 = r.slot % 256 ∧ byteAt p 2 = r.id % 256 ∧
      fieldAt p 3 2 = r.scale % 65536) ∧
    (s.region.classes = none → byteAt p 5 = 0xFF ∧ ∀ i, i < 8 → byteAt p (6 + i) = 0) ∧
    (∀ cs, s.region.classes = some cs → byteAt p 5 = cs.length % 256 ∧
      ∀ i, i < 8 → byteAt p (6 + i) = (cs.getD i 0) % 256) ∧
    byteAt p 14 = s.region.reason % 256 ∧ ∀ i, 15 ≤ i → byteAt p i = 0 := by
  intro p
  obtain ⟨head, classes, five, nine, content, unselected, selected, unknown, known⟩ := s.regionPage_parts
  have length : s.regionPage.length = 15 := by
    simp only [content, List.length_append, five, nine, List.length_cons, List.length_nil]
  have first : slice p 0 5 = head := by
    refine (slice_padTo (l := s.regionPage) (by omega) (by omega)).trans ?_
    rw [content, slice_left (by omega), ← five, slice, List.drop_zero, List.take_length]
  have second : slice p 5 9 = classes := by
    refine (slice_padTo (l := s.regionPage) (by omega) (by omega)).trans ?_
    rw [content, slice_right (by omega), five, slice_left (by omega), Nat.sub_self, ← nine, slice, List.drop_zero, List.take_length]
  have last : slice p 14 1 = [byteOf s.region.reason] := by
    refine (slice_padTo (l := s.regionPage) (by omega) (by omega)).trans ?_
    rw [content, slice_right (by omega), five, slice_right (by omega), nine]
    rfl
  refine ⟨fun no => ?_, fun r so => ?_, fun no => ?_, fun cs so => ?_, ?_, fun i hi => byteAt_padTo (l := s.regionPage) (by omega)⟩
  · rw [unselected no] at first
    exact ⟨byteAt_within first (b := 0) rfl (by omega), byteAt_within first (b := 1) rfl (by omega),
      byteAt_within first (b := 2) rfl (by omega), fieldAt_within first (b := 3) rfl (by omega)⟩
  · rw [selected r so] at first
    exact ⟨byteAt_within first (b := 0) rfl (by omega), (byteAt_within first (b := 1) rfl (by omega)).trans (byteAt_byteOf rfl),
      (byteAt_within first (b := 2) rfl (by omega)).trans (byteAt_byteOf rfl),
      (fieldAt_within first (b := 3) rfl (by omega)).trans (fieldAt_le 2 _ rfl)⟩
  · rw [unknown no] at second
    refine ⟨byteAt_within second (b := 0) rfl (by omega), fun i hi => ?_⟩
    exact (byteAt_within second (b := i + 1) (by omega) (by omega)).trans (byteAt_zeros 8 i)
  · rw [known cs so] at second
    refine ⟨(byteAt_within second (b := 0) rfl (by omega)).trans (byteAt_byteOf rfl), fun i hi => ?_⟩
    refine (byteAt_within second (b := i + 1) (by omega) (by omega)).trans (byteAt_byteOf ?_)
    rw [List.getD_cons_succ, List.getD_eq_getElem?_getD, List.getD_eq_getElem?_getD, padTo, ← List.map_take]
    by_cases inside : i < cs.length
    · rw [List.getElem?_append_left (by simp only [List.length_map, List.length_take]; omega), List.getElem?_map,
        List.getElem?_take_of_lt hi, List.getElem?_eq_getElem inside]
      rfl
    · rw [List.getElem?_append_right (by simp only [List.length_map, List.length_take]; omega), List.getElem?_replicate,
        List.getElem?_eq_none (l := cs) (by omega)]
      split <;> rfl
  · exact (byteAt_within last (b := 0) rfl (by omega)).trans (byteAt_byteOf rfl)

theorem State.mapEntry_lt (s : State) (i : Nat) : s.mapEntry i < 16 := by
  unfold State.mapEntry
  split
  · exact ZoneClass.code_lt _
  · decide
  · decide

/-- Two entries of the class map stand in each byte, the lower first (R38). -/
theorem State.mapPage_entry (s : State) {i : Nat} (inside : i < 9216) :
    (byteAt (s.responsePage (16 + i / 512)) (i / 2 % 256) / (if i % 2 = 0 then 1 else 16)) % 16 = s.mapEntry i := by
  have length : (s.mapPage (16 + i / 512)).length = 256 := by rw [State.mapPage, List.length_map, List.length_range]
  have low := s.mapEntry_lt (512 * (i / 512) + 2 * (i / 2 % 256))
  have high := s.mapEntry_lt (512 * (i / 512) + 2 * (i / 2 % 256) + 1)
  have byte : byteAt (s.responsePage (16 + i / 512)) (i / 2 % 256) =
      s.mapEntry (512 * (i / 512) + 2 * (i / 2 % 256)) + 16 * s.mapEntry (512 * (i / 512) + 2 * (i / 2 % 256) + 1) := by
    have found : (s.responsePage (16 + i / 512)).getD (i / 2 % 256) 0 =
        byteOf (s.mapEntry (512 * (i / 512) + 2 * (i / 2 % 256)) + 16 * s.mapEntry (512 * (i / 512) + 2 * (i / 2 % 256) + 1)) := by
      rw [s.responsePage_map (by omega), if_pos (by omega), padTo_of_le (by omega), List.getD_eq_getElem?_getD,
        List.getElem?_append_left (by omega), State.mapPage, List.getElem?_map, List.getElem?_range (Nat.mod_lt _ (by decide)),
        Nat.add_sub_cancel_left]
      rfl
    exact byteAt_code found (by omega)
  rw [byte]
  by_cases even : i % 2 = 0
  · rw [if_pos even, show 512 * (i / 512) + 2 * (i / 2 % 256) = i by omega] at *
    omega
  · rw [if_neg even, show 512 * (i / 512) + 2 * (i / 2 % 256) + 1 = i by omega] at *
    omega

/-- Settles O27: a read's bytes by their sources, and each page by its parts. -/
theorem readsServeEachByteFromItsSource : Obligations.ReadsServeEachByteFromItsSource := by
  refine ⟨?reads, ?sources, ⟨rfl, rfl, rfl, rfl, rfl, rfl, rfl, rfl, rfl⟩, ?blank, State.statusPage_fields,
    fun s e x nine entry => s.outcomePage_fields nine entry, State.reportPage_fields, State.conditionPage_fields,
    State.historyPage_fields, State.keyPage_fields, State.counterPage_fields, State.regionPage_fields, ?map⟩
  case reads =>
    intro addr n s free idle c hc shown p u
    refine (exec_read hc free).trans ?_
    have filled : s.fills addr.toNat n = none := if_neg (by rw [idle]; nofun)
    rw [filled, funext fun w => Watch.countRead_shown w addr (s.shows addr.toNat n) _]
    dsimp only
    rw [← s.afterRead_conds addr.toNat n, State.afterRead_free idle]
    rfl
  case sources =>
    intro s addr i a presented
    refine ⟨fun h => State.source_free h _ a, fun l mode layout valid => (State.source_layout mode layout valid _ a).trans ?_⟩
    cases s.region.selected <;> rfl
  case blank =>
    refine fun s n => ⟨s.responsePage_length n, fun beyond gap i => ?_⟩
    rw [s.responsePage_map (by omega), if_neg (by omega)]
    show (padTo 256 0 []).getD i 0 = 0
    rw [padTo_of_le (Nat.zero_le _), List.nil_append, List.getD_eq_getElem?_getD, List.getElem?_replicate]
    split <;> rfl
  case map =>
    intro s i inside
    refine (s.mapPage_entry inside).trans ?_
    unfold State.mapEntry
    cases s.classMap[i]? with
    | none => rfl
    | some c =>
      cases c with
      | none => rfl
      | some c => cases c <;> rfl

end Sys2Proof.Machine
end

section
/-! The overlay's bytes (R101 to R108): its header, the rounding and clamping of a code, and the packed form of width 6; the
statement O28. -/

namespace Sys2Proof.Machine

/-! ## The header (R101, R107) -/

theorem Grid.header_length (g : Grid) : g.header.length = 32 := rfl

/-- The first 32 bytes of the overlay are its header. -/
theorem Grid.overlay_header (g : Grid) : (List.range 32).map g.overlayByte = g.header := by
  rw [eq_map_getD g.header 0, g.header_length]
  refine List.map_congr_left fun o ho => ?_
  rw [Grid.overlayByte, if_pos (List.mem_range.mp ho)]

theorem Grid.gray_eq (g : Grid) (p : Plane) : g.gray p % 65536 = match g.planeRecord p with
    | some r => r.gray % 65536
    | none => 0 := by
  unfold Grid.gray
  cases g.planeRecord p <;> rfl

/-- The bounds of a sound grid. -/
theorem Grid.sound_bounds {g : Grid} (sound : g.sound) : g.cols ≤ 128 ∧ g.rows ≤ 72 ∧ g.zones ≤ 9216 := by
  obtain ⟨geometry, -⟩ := sound
  have dims : g.cols ≤ 128 ∧ g.rows ≤ 72 := by
    unfold Grid.cols Grid.rows
    cases hg : g.geometry with
    | none => exact ⟨by decide, by decide⟩
    | some q =>
      rw [hg] at geometry
      exact ⟨geometry.2.1, geometry.2.2.2⟩
  exact ⟨dims.1, dims.2, Nat.mul_le_mul dims.1 dims.2⟩

theorem Grid.header_fields {g : Grid} (sound : g.sound) :
    let h := g.header
    byteAt h 0 = 0x5A ∧ byteAt h 1 = 0xC3 ∧ byteAt h 2 = 1 ∧ byteAt h 3 = 3 ∧ byteAt h 4 = g.cols ∧ byteAt h 5 = g.rows ∧
    byteAt h 6 = g.width ∧ byteAt h 7 = g.shift ∧ fieldAt h 8 4 = g.generation ∧
    fieldAt h 12 2 = (match g.low with | some r => r.gray % 65536 | none => 0) ∧
    fieldAt h 14 2 = (match g.mid with | some r => r.gray % 65536 | none => 0) ∧
    fieldAt h 16 2 = (match g.high with | some r => r.gray % 65536 | none => 0) ∧
    fieldAt h 18 4 = (if g.width = 6 then 32 + 3 * ((3 * g.zones + 3) / 4) else 32 + 3 * g.zones) ∧
    byteAt h 22 = (if true ∈ g.marks then 1 else 0) ∧ ∀ i, 23 ≤ i → byteAt h i = 0 := by
  obtain ⟨cols, rows, zones⟩ := Grid.sound_bounds sound
  obtain ⟨-, -, -, -, width, shift, generation, mark⟩ := sound
  unfold genMax at mark
  have length : g.presentedLength < 256 ^ 4 := by
    rw [Grid.presentedLength_eq]
    split <;> omega
  obtain ⟨h, hh⟩ : ∃ h, h = g.header := ⟨_, rfl⟩
  have behind : ∀ i, 23 ≤ i → byteAt h i = 0 := fun i hi => by
    have zeros : slice h 23 9 = List.replicate 9 0 := by rw [hh]; rfl
    by_cases inside : i < 32
    · rw [byteAt_within zeros (b := i - 23) (by omega) (by omega), byteAt_zeros]
    · exact byteAt_beyond (by rw [hh, g.header_length]; omega)
  rw [← hh]
  simp only [Grid.header, le, List.cons_append, List.nil_append] at hh
  subst hh
  refine ⟨rfl, rfl, rfl, rfl, byteAt_code rfl (by omega), byteAt_code rfl (by omega), byteAt_code rfl (by omega),
    byteAt_code rfl (by omega), (fieldAt_le 4 g.generation rfl).trans (Nat.mod_eq_of_lt (by omega)),
    (fieldAt_le 2 (g.gray .low) rfl).trans (g.gray_eq .low), (fieldAt_le 2 (g.gray .mid) rfl).trans (g.gray_eq .mid),
    (fieldAt_le 2 (g.gray .high) rfl).trans (g.gray_eq .high),
    (fieldAt_le 4 g.presentedLength rfl).trans ((Nat.mod_eq_of_lt length).trans g.presentedLength_eq),
    (byteAt_flag rfl).trans ?_, behind⟩
  simp only [decide_eq_true_eq, Grid.markCount, List.count_pos_iff]

/-! ## The presented code (R102 to R104) -/

/-- A bit of a byte in two's complement. -/
theorem byteOfInt_bit (c : Int) (k : Nat) : (byteOfInt c).getLsbD k = decide ((c % 256).toNat / 2 ^ k % 2 = 1) := by
  rw [BitVec.getLsbD, byteOfInt, BitVec.toNat_ofInt, Nat.testBit_eq_decide_div_mod_eq]
  rfl

/-- The shifted code with the bit below it added is the code's quotient, halves up (R102). -/
theorem roundCode_eq {shift : Nat} (small : shift ≤ 3) (c : Int) :
    roundCode shift c = if shift = 0 then c else (2 * c + 2 ^ shift) / (2 * 2 ^ shift) := by
  unfold roundCode
  split
  · rfl
  · rw [byteOfInt_bit]
    obtain rfl | rfl | rfl : shift = 1 ∨ shift = 2 ∨ shift = 3 := by omega
    all_goals
      simp only [decide_eq_true_eq]
      norm_num
      split <;> omega

theorem clampCode_eq {width : Nat} (p : Int) :
    clampCode width p = max (-(2 ^ (width - 1))) (min (2 ^ (width - 1) - 1) p) := by
  have positive : (0 : Int) < 2 ^ (width - 1) := by positivity
  simp only [clampCode, Nat.cast_pow, Nat.cast_ofNat]
  generalize (2 : Int) ^ (width - 1) = top at *
  split_ifs <;> omega

theorem Grid.presented_marked {g : Grid} {k : Nat} (marked : g.marks.getD k false = true) : g.presented k = 0 := if_pos marked

theorem Grid.presented_unmarked {g : Grid} {k : Nat} (shift : g.shift ≤ 3) (unmarked : g.marks.getD k false = false) :
    g.presented k = max (-(2 ^ (g.width - 1))) (min (2 ^ (g.width - 1) - 1)
      (if g.shift = 0 then g.codes.getD k 0 else (2 * g.codes.getD k 0 + 2 ^ g.shift) / (2 * 2 ^ g.shift))) := by
  rw [← roundCode_eq shift, ← clampCode_eq]
  exact if_neg (by rw [unmarked]; nofun)

/-- A presented code stays in the width in force (R103). -/
theorem Grid.presented_bounds (g : Grid) (k : Nat) : -(2 ^ (g.width - 1)) ≤ g.presented k ∧ g.presented k ≤ 2 ^ (g.width - 1) - 1 := by
  have positive : (0 : Int) < 2 ^ (g.width - 1) := by positivity
  unfold Grid.presented
  split
  · omega
  · rw [clampCode_eq]
    omega

/-! ## The codes behind the header (R105, R106) -/

/-- At width 8 a code is a byte. -/
theorem Grid.overlayByte_wide {g : Grid} (width : g.width = 8) (k : Nat) : (g.overlayByte (32 + k)).toInt = g.presented k := by
  have bounds := g.presented_bounds k
  rw [width] at bounds
  rw [Grid.overlayByte, if_neg (by omega), Grid.gridByte, if_neg (by omega), Nat.add_sub_cancel_left, byteOfInt, BitVec.toInt_ofInt]
  exact Int.bmod_eq_of_le (by norm_num at *; omega) (by norm_num at *; omega)

theorem packedByte_first (a b c d : Nat) : packedByte a b c d 0 = BitVec.ofNat 8 (a + 64 * (b % 4)) := rfl
theorem packedByte_second (a b c d : Nat) : packedByte a b c d 1 = BitVec.ofNat 8 (b / 4 + 16 * (c % 16)) := rfl
theorem packedByte_third (a b c d : Nat) : packedByte a b c d 2 = BitVec.ofNat 8 (c / 16 + 4 * d) := rfl

/-- Four codes of six bits stand in three bytes, bit after bit. -/
theorem packedByte_bit {c : Nat → Nat} (small : ∀ r, c r < 64) {r b : Nat} (hr : r < 4) (hb : b < 6) :
    (packedByte (c 0) (c 1) (c 2) (c 3) ((6 * r + b) / 8)).getLsbD ((6 * r + b) % 8) = (c r).testBit b := by
  have c0 := small 0
  have c1 := small 1
  have c2 := small 2
  have c3 := small 3
  interval_cases r <;> interval_cases b
  all_goals
    simp only [Nat.reduceMul, Nat.reduceAdd, Nat.reduceDiv, Nat.reduceMod, packedByte_first, packedByte_second, packedByte_third,
      BitVec.getLsbD_ofNat, Nat.testBit_eq_decide_div_mod_eq]
    norm_num
    omega

/-- At width 6 bit b of code k is bit 6k + b of the bytes behind the header. -/
theorem Grid.overlayByte_packed {g : Grid} (width : g.width = 6) {k b : Nat} (hb : b < 6) :
    (g.overlayByte (32 + (6 * k + b) / 8)).getLsbD ((6 * k + b) % 8) = (BitVec.ofInt 6 (g.presented k)).getLsbD b := by
  have group : 4 * ((6 * k + b) / 8 / 3) = k - k % 4 := by omega
  have place : (6 * k + b) / 8 % 3 = (6 * (k % 4) + b) / 8 := by omega
  have bit : (6 * k + b) % 8 = (6 * (k % 4) + b) % 8 := by omega
  have code : g.presented k = g.presented (k - k % 4 + k % 4) := by rw [Nat.sub_add_cancel (Nat.mod_le k 4)]
  rw [Grid.overlayByte, if_neg (by omega), Grid.gridByte, if_pos width, Nat.add_sub_cancel_left]
  dsimp only
  rw [group, place, bit, code]
  exact packedByte_bit (c := fun r => sixBits (g.presented (k - k % 4 + r))) (fun r => BitVec.isLt _) (Nat.mod_lt k (by decide)) hb

/-- Settles O28: the header byte by byte, and each code by the width in force. -/
theorem theOverlayShowsThePresentedCodes : Obligations.TheOverlayShowsThePresentedCodes := by
  refine ⟨fun g sound => ?header, fun g k sound inside => ⟨Grid.presented_marked, ?unmarked,
    fun width => Grid.overlayByte_wide width k, fun width b hb => Grid.overlayByte_packed width hb⟩⟩
  case unmarked =>
    obtain ⟨-, -, -, -, -, shift, -⟩ := sound
    exact Grid.presented_unmarked shift
  case header =>
    rw [Grid.overlay_header]
    exact Grid.header_fields sound

end Sys2Proof.Machine
end

section
/-! The check of a block (R116 to R119) and what is written behind it: commit records (R135) and key slots (R153); the statements
O17, O18 and O19. -/

namespace Sys2Proof.Machine

/-! ## The check fields -/

theorem checkA_lt (data : List Byte) : checkA data < checkModulus := Nat.mod_lt _ (by decide)
theorem checkB_lt (data : List Byte) : checkB data < checkModulus := Nat.mod_lt _ (by decide)

/-- A block whose check fields are both below the modulus's range of 65535 is not BLANK. -/
theorem not_blank {data : List Byte} {x y : Nat} (hx : x < 65536) (hy : y < 65536) (written : x ≠ 65535 ∨ y ≠ 65535) :
    (data ++ (le 2 x ++ le 2 y)).all (fun b => b == erasedByte) = false := by
  rw [Bool.eq_false_iff, ne_eq, List.all_eq_true]
  intro all
  have bytes : ∀ b ∈ le 2 x ++ le 2 y, b.toNat = 255 := fun b hb => by
    rw [beq_iff_eq.mp (all b (List.mem_append_right _ hb))]
    rfl
  have x0 := bytes (BitVec.ofNat 8 x) (by simp [le])
  have x1 := bytes (BitVec.ofNat 8 (x / 256)) (by simp [le])
  have y0 := bytes (BitVec.ofNat 8 y) (by simp [le])
  have y1 := bytes (BitVec.ofNat 8 (y / 256)) (by simp [le])
  simp only [BitVec.toNat_ofNat] at x0 x1 y0 y1
  omega

/-- The decode of a block whose check fields are `x` and `y`. -/
theorem decodeBlock_fields (data : List Byte) {x y : Nat} (hx : x < 65536) (hy : y < 65536) (written : x ≠ 65535 ∨ y ≠ 65535) :
    decodeBlock data (le 2 x ++ le 2 y) =
      if syndrome (checkA data) x = 0 ∧ syndrome (checkB data) y = 0 then .good
      else if syndrome (checkA data) x = 32753 ∧ syndrome (checkB data) y = 32753 then .poisoned
      else if syndrome (checkA data) x = 0 ∨ syndrome (checkB data) y = 0 then .checkOnly
      else singleByte data (syndrome (checkA data) x) (syndrome (checkB data) y) := by
  have first : fieldAt (le 2 x ++ le 2 y) 0 2 = x := (fieldAt_le 2 x rfl).trans (Nat.mod_eq_of_lt hx)
  have second : fieldAt (le 2 x ++ le 2 y) 2 2 = y := (fieldAt_le 2 y rfl).trans (Nat.mod_eq_of_lt hy)
  rw [decodeBlock, not_blank hx hy written, first, second]
  rfl

theorem syndrome_self (c : Nat) : syndrome c c = 0 := by
  rw [syndrome, sub_self]
  rfl

/-- A block written poisoned shows the syndrome of poisoning in both fields (R119). -/
theorem syndrome_poisoned (c : Nat) : syndrome c ((c + 32768) % checkModulus) = 32753 := by
  unfold syndrome checkModulus at *
  omega

theorem syndrome_ne_zero {c v : Nat} (h : c < checkModulus) (differ : v % checkModulus ≠ c) : syndrome c v ≠ 0 := by
  unfold syndrome checkModulus at *
  omega

theorem decodeBlock_good (data : List Byte) : decodeBlock data (checkOf data) = .good := by
  have a := checkA_lt data
  have b := checkB_lt data
  unfold checkModulus at a b
  rw [checkOf, decodeBlock_fields data (by omega) (by omega) (.inl (by omega)), syndrome_self, syndrome_self, if_pos ⟨rfl, rfl⟩]

theorem decodeBlock_poisoned (data : List Byte) : decodeBlock data (poisonedCheckOf data) = .poisoned := by
  have a : (checkA data + 32768) % checkModulus < checkModulus := Nat.mod_lt _ (by decide)
  have b : (checkB data + 32768) % checkModulus < checkModulus := Nat.mod_lt _ (by decide)
  have modulus : checkModulus = 65521 := rfl
  rw [poisonedCheckOf, decodeBlock_fields data (by omega) (by omega) (.inl (by omega)), syndrome_poisoned, syndrome_poisoned,
    if_neg (by omega), if_pos ⟨rfl, rfl⟩]

theorem decodeBlock_checkA (data : List Byte) {v : Nat} (hv : v < 65536) (differ : v % checkModulus ≠ checkA data) :
    decodeBlock data (le 2 v ++ le 2 (checkB data)) = .checkOnly := by
  have b := checkB_lt data
  unfold checkModulus at b
  have a := syndrome_ne_zero (checkA_lt data) differ
  rw [decodeBlock_fields data hv (by omega) (.inr (by omega)), syndrome_self, if_neg (by omega), if_neg (by omega), if_pos (.inr rfl)]

theorem decodeBlock_checkB (data : List Byte) {v : Nat} (hv : v < 65536) (differ : v % checkModulus ≠ checkB data) :
    decodeBlock data (le 2 (checkA data) ++ le 2 v) = .checkOnly := by
  have a := checkA_lt data
  unfold checkModulus at a
  have b := syndrome_ne_zero (checkB_lt data) differ
  rw [decodeBlock_fields data (by omega) hv (.inl (by omega)), syndrome_self, if_neg (by omega), if_neg (by omega), if_pos (.inl rfl)]

/-! ## One damaged byte (R118) -/

/-- A byte changed changes the plain sum by its difference. -/
theorem byteSum_set {data : List Byte} {i : Nat} {b old : Byte} (h : data[i]? = some old) :
    (byteSum (data.set i b) : Int) = byteSum data + (b.toNat - old.toNat) := by
  induction data generalizing i with
  | nil => cases h
  | cons x t ih =>
    cases i with
    | zero =>
      obtain rfl : x = old := Option.some.inj h
      rw [List.set_cons_zero, byteSum, byteSum]
      push_cast
      ring
    | succ i =>
      rw [List.set_cons_succ, byteSum, byteSum]
      push_cast
      rw [ih h]
      ring

/-- And the weighted sum by its difference times its weight. -/
theorem weightedSum_set {data : List Byte} {i : Nat} {b old : Byte} (h : data[i]? = some old) (k : Nat) :
    (weightedSum k (data.set i b) : Int) = weightedSum k data + (k + i) * (b.toNat - old.toNat) := by
  induction data generalizing i k with
  | nil => cases h
  | cons x t ih =>
    cases i with
    | zero =>
      obtain rfl : x = old := Option.some.inj h
      rw [List.set_cons_zero, weightedSum, weightedSum]
      push_cast
      ring
    | succ i =>
      rw [List.set_cons_succ, weightedSum, weightedSum]
      push_cast
      rw [ih h]
      push_cast
      ring

/-- Two sums' difference is the syndrome of their checks. -/
theorem syndrome_difference {x y : Nat} {d : Int} (h : (x : Int) = y + d) :
    syndrome (x % checkModulus) (y % checkModulus) = (d % checkModulus).toNat := by
  unfold syndrome checkModulus at *
  omega

/-- A small error is read back from its syndrome. -/
theorem windowed_difference {bound : Nat} {d : Int} (small : 2 * bound < checkModulus) (low : -(bound : Int) ≤ d) (high : d ≤ bound) :
    windowed bound (d % checkModulus).toNat = some d := by
  have modulus : checkModulus = 65521 := rfl
  unfold windowed
  rw [modulus] at small ⊢
  by_cases positive : 0 ≤ d
  · have same : (d % (65521 : Nat)).toNat = d.toNat := by omega
    rw [same, if_pos (by omega), Int.toNat_of_nonneg positive]
  · have same : (d % (65521 : Nat)).toNat = 65521 - (-d).toNat := by omega
    rw [same, if_neg (by omega), if_pos (by omega), Option.some.injEq]
    omega

/-- The error's place is the second syndrome by the first, and the byte is the one read less the error (R118). -/
theorem singleByte_repairs {data : List Byte} {i : Nat} {old b : Byte} (length : data.length ≤ 64) (found : data[i]? = some b)
    (differ : b ≠ old) :
    singleByte data (((b.toNat : Int) - old.toNat) % checkModulus).toNat
      (((1 + i : Int) * (b.toNat - old.toNat)) % checkModulus).toNat = .repaired i old := by
  have modulus : checkModulus = 65521 := rfl
  have inside := (List.getElem?_eq_some_iff.mp found).1
  have bounds : b.toNat < 256 ∧ old.toNat < 256 := ⟨b.isLt, old.isLt⟩
  have unequal : b.toNat ≠ old.toNat := fun e => differ (BitVec.eq_of_toNat_eq e)
  have byte : byteAt data i = b.toNat := by
    rw [byteAt, List.getD_eq_getElem?_getD, found, Option.getD_some]
  obtain ⟨e, he⟩ : ∃ e : Int, e = b.toNat - old.toNat := ⟨_, rfl⟩
  have nonzero : e ≠ 0 := by omega
  have large : ∀ k : Int, 0 ≤ k → k ≤ data.length → -(255 * data.length : Nat) ≤ k * e ∧ k * e ≤ (255 * data.length : Nat) := by
    intro k hk hle
    constructor <;> push_cast <;> nlinarith
  obtain ⟨least, greatest⟩ := large (1 + i) (by omega) (by omega)
  have place : (1 + (i : Int)) * e / e = 1 + i := Int.mul_ediv_cancel _ nonzero
  rw [← he, singleByte, windowed_difference (by omega) (by omega) (by omega), windowed_difference (by omega) least greatest]
  dsimp only
  have index : ((1 + i : Int) - 1).toNat = i := by omega
  rw [place, index, byte, if_pos ⟨rfl, by omega, by omega, by omega, by omega⟩]
  have back : byteOfInt ((b.toNat : Int) - e) = old := by
    rw [he, sub_sub_cancel]
    exact BitVec.eq_of_toNat_eq (by simp [byteOfInt])
  rw [back]

/-- A block with one damaged byte is restored (R117, R118). -/
theorem decodeBlock_damaged {data : List Byte} {i : Nat} {b old : Byte} (length : data.length ≤ 64) (was : data[i]? = some old)
    (differ : b ≠ old) : decodeBlock (data.set i b) (checkOf data) = .repaired i old := by
  have modulus : checkModulus = 65521 := rfl
  have inside := (List.getElem?_eq_some_iff.mp was).1
  have found : (data.set i b)[i]? = some b := List.getElem?_set_self inside
  have bounds : b.toNat < 256 ∧ old.toNat < 256 := ⟨b.isLt, old.isLt⟩
  have unequal : b.toNat ≠ old.toNat := fun e => differ (BitVec.eq_of_toNat_eq e)
  have first : syndrome (checkA (data.set i b)) (checkA data) = (((b.toNat : Int) - old.toNat) % checkModulus).toNat :=
    syndrome_difference (by push_cast; rw [byteSum_set was]; ring)
  have second : syndrome (checkB (data.set i b)) (checkB data) = (((1 + i : Int) * (b.toNat - old.toNat)) % checkModulus).toNat :=
    syndrome_difference (weightedSum_set was 1)
  have a := checkA_lt data
  have b' := checkB_lt data
  have weighted : (1 + i : Int) * (b.toNat - old.toNat) ≠ 0 ∧ -16320 ≤ (1 + i : Int) * (b.toNat - old.toNat) ∧
      (1 + i : Int) * (b.toNat - old.toNat) ≤ 16320 := by
    refine ⟨mul_ne_zero (by omega) (by omega), ?_, ?_⟩ <;> nlinarith
  have repairs := singleByte_repairs (old := old) (by rw [List.length_set]; exact length) found differ
  rw [checkOf, decodeBlock_fields _ (by omega) (by omega) (.inl (by omega)), first, second]
  rw [modulus] at repairs ⊢
  rw [if_neg (by omega), if_neg (by omega), if_neg (by omega), repairs]

/-- Settles O17: what is written agrees with its check, and a difference in one place shows in the syndromes. -/
theorem checkBlocksDecodeAndRepair : Obligations.CheckBlocksDecodeAndRepair := by
  refine ⟨fun data => ⟨decodeBlock_good data, decodeBlock_poisoned data, fun v hv =>
    ⟨decodeBlock_checkA data hv, decodeBlock_checkB data hv⟩⟩, fun data i b length inside damaged => ?_⟩
  have was : data[i]? = some (data.getD i 0) := by
    rw [List.getD_eq_getElem?_getD, List.getElem?_eq_getElem inside, Option.getD_some]
  have differ : b ≠ data.getD i 0 := fun e => damaged (e ▸ was)
  refine ⟨decodeBlock_damaged (by omega) was differ, ?_⟩
  rw [repairData, List.set_set, List.getD_eq_getElem?_getD, List.getElem?_eq_getElem inside, Option.getD_some, List.set_getElem_self]

/-! ## Embedded blocks (R116) -/

section
variable {data : List Byte}

theorem embedBlock_eq (sixty : data.length = 60) : embedBlock data = data ++ checkOf data := by
  have whole : padTo 60 0 data = data := by
    rw [padTo_of_le (by omega), sixty, Nat.sub_self, List.replicate_zero, List.append_nil]
  rw [embedBlock, whole]

theorem embedBlock_parts (sixty : data.length = 60) :
    slice (embedBlock data) 0 60 = data ∧ slice (embedBlock data) 60 4 = checkOf data := by
  rw [embedBlock_eq sixty]
  constructor
  · rw [slice_left (by omega), ← sixty, slice, List.drop_zero, List.take_length]
  · rw [slice_right (by omega), sixty, slice, Nat.sub_self, List.drop_zero]
    exact List.take_of_length_le (by rw [checkOf, List.length_append, le_length, le_length])

theorem decodeEmbedded_embedBlock (sixty : data.length = 60) : decodeEmbedded (embedBlock data) = .good := by
  obtain ⟨content, check⟩ := embedBlock_parts sixty
  rw [decodeEmbedded, content, check, decodeBlock_good]

theorem embeddedData_embedBlock (sixty : data.length = 60) : embeddedData (embedBlock data) = data := by
  rw [embeddedData, decodeEmbedded_embedBlock sixty, (embedBlock_parts sixty).1]
  rfl

end

/-! ## Commit records (R135, 03 §3.6) -/

theorem CommitRecord.data_length (r : CommitRecord) : r.data.length = 60 := by
  simp only [CommitRecord.data, List.length_append, le_length, List.length_cons, List.length_nil, List.length_replicate]

/-- The five flags stand in bits 0 to 4. -/
theorem CommitRecord.flags_bits (r : CommitRecord) : r.flags < 32 ∧ r.flags.testBit 0 = r.closed ∧ r.flags.testBit 1 = r.regionValid ∧
    r.flags.testBit 2 = r.timeValid ∧ r.flags.testBit 3 = r.uniformityValid ∧ r.flags.testBit 4 = r.parkValid := by
  have table : ∀ a b c d e : Bool, let n := flagBit a 1 + flagBit b 2 + flagBit c 4 + flagBit d 8 + flagBit e 16
      n < 32 ∧ n.testBit 0 = a ∧ n.testBit 1 = b ∧ n.testBit 2 = c ∧ n.testBit 3 = d ∧ n.testBit 4 = e := by decide
  exact table r.closed r.regionValid r.timeValid r.uniformityValid r.parkValid

/-- Settles O18: each field stands where its bytes were put, and the block decodes GOOD. -/
theorem commitRecordsReadBack : Obligations.CommitRecordsReadBack := by
  intro r kind station ringGen uniGen uniLength width shift cols rows poisoned parkGen parkImage regionSlot profileId regionScale keySet
    day seconds unknown
  obtain ⟨small, closed, regionValid, timeValid, uniformityValid, parkValid⟩ := r.flags_bits
  have whole : commitRecordOf r.data = r := by
    obtain ⟨d, hd⟩ : ∃ d, d = r.data := ⟨_, rfl⟩
    rw [← hd]
    simp only [CommitRecord.data, le, List.cons_append, List.nil_append] at hd
    subst hd
    have flags : ∀ l : List Byte, l.getD 2 0 = BitVec.ofNat 8 r.flags → byteAt l 2 = r.flags := fun l h =>
      byteAt_code h (by omega)
    rw [commitRecordOf, flags _ rfl, closed, regionValid, timeValid, uniformityValid, parkValid]
    have byte : ∀ {l : List Byte} {i n : Nat}, l.getD i 0 = BitVec.ofNat 8 n → n < 256 → byteAt l i = n := byteAt_code
    have two : ∀ {l : List Byte} {i n : Nat}, slice l i 2 = le 2 n → n < 65536 → fieldAt l i 2 = n := fun part small =>
      (fieldAt_le 2 _ part).trans (Nat.mod_eq_of_lt small)
    have four : ∀ {l : List Byte} {i n : Nat}, slice l i 4 = le 4 n → n < 2 ^ 32 → fieldAt l i 4 = n := fun part small =>
      (fieldAt_le 4 _ part).trans (Nat.mod_eq_of_lt small)
    rw [byte (i := 1) rfl kind, byte (i := 3) rfl station, four (i := 4) rfl ringGen, four (i := 8) rfl uniGen,
      four (i := 12) rfl uniLength, byte (i := 16) rfl width, byte (i := 17) rfl shift, byte (i := 18) rfl cols,
      byte (i := 19) rfl rows, two (i := 20) rfl poisoned, four (i := 22) rfl parkGen, four (i := 26) rfl parkImage,
      byte (i := 30) rfl regionSlot, byte (i := 31) rfl profileId, two (i := 32) rfl regionScale, two (i := 34) rfl keySet,
      two (i := 36) rfl day, four (i := 38) rfl seconds, two (i := 42) rfl unknown]
  rw [ringRecord, embeddedData_embedBlock r.data_length, decodeEmbedded_embedBlock r.data_length, whole]
  rfl

/-! ## Key slots (R153, 03 §3.6) -/

/-- The consecutive parts of a list, one behind another, are the list as far as they reach. -/
theorem flatten_slices {α : Type} (l : List α) (c n : Nat) :
    ((List.range n).map fun j => slice l (c * j) c).flatten = l.take (c * n) := by
  induction n with
  | zero => rw [Nat.mul_zero, List.take_zero]; rfl
  | succ n ih =>
    rw [List.range_succ, List.map_append, List.flatten_append, ih, Nat.mul_succ, List.take_add, List.map_cons, List.map_nil,
      List.flatten_cons, List.flatten_nil, List.append_nil]
    rfl

/-- The eight blocks of a key slot give back its 480 data bytes. -/
theorem keySlot_blocks {d : List Byte} (whole : d.length = 480) :
    (keySlotBytes d).length = 512 ∧ (∀ j, j < 8 → slice (keySlotBytes d) (64 * j) 64 = embedBlock (slice d (60 * j) 60)) ∧
    ((List.range 8).map fun j => embeddedData (slice (keySlotBytes d) (64 * j) 64)).flatten = d := by
  have size : ∀ j : Nat, (embedBlock (slice d (60 * j) 60)).length = 64 := fun j => by
    rw [embedBlock, List.length_append, padTo_length, checkOf, List.length_append, le_length, le_length]
  have part : ∀ j, j < 8 → slice (keySlotBytes d) (64 * j) 64 = embedBlock (slice d (60 * j) 60) := fun j hj => by
    have found := slice_flatten size [] (xs := List.range 8) (i := j) (x := j) (List.getElem?_range hj)
    rwa [List.append_nil] at found
  refine ⟨(length_flatten_map size _).trans rfl, part, ?_⟩
  have back : ((List.range 8).map fun j => embeddedData (slice (keySlotBytes d) (64 * j) 64)) =
      (List.range 8).map fun j => slice d (60 * j) 60 := List.map_congr_left fun j hj => by
    rw [List.mem_range] at hj
    rw [part j hj, embeddedData_embedBlock (slice_length (by omega))]
  rw [back, flatten_slices, List.take_of_length_le (by omega)]

/-- The first sixteen data bytes of a key slot. -/
def keyHead (slot : Nat) (e : KeyEntry) : List Byte :=
  [0x4B, BitVec.ofNat 8 slot, BitVec.ofNat 8 e.cls, BitVec.ofNat 8 e.station] ++ le 2 e.length ++ le 2 e.day ++ le 4 e.seconds
    ++ List.replicate 4 0

theorem keySlotData_eq (slot : Nat) (e : KeyEntry) (payload : List Byte) :
    keySlotData slot e payload = keyHead slot e ++ (padTo 448 0 (payload.take e.length) ++ List.replicate 16 0) := by
  rw [keySlotData, List.append_assoc]
  rfl

theorem keyHead_length (slot : Nat) (e : KeyEntry) : (keyHead slot e).length = 16 := rfl

theorem keySlotData_length (slot : Nat) (e : KeyEntry) (payload : List Byte) : (keySlotData slot e payload).length = 480 := by
  rw [keySlotData_eq, List.length_append, List.length_append, padTo_length, keyHead_length, List.length_replicate]

/-- Settles O19: the blocks give back the data, whose header, payload and zeros stand one behind another. -/
theorem storedKeysReadBack : Obligations.StoredKeysReadBack := by
  intro slot e payload hslot least most shortest longest station day seconds whole bytes data
  obtain ⟨length, blocks, back⟩ := keySlot_blocks (keySlotData_length slot e payload)
  have same : data = keySlotData slot e payload := back
  have size : data.length = 480 := same ▸ keySlotData_length slot e payload
  have head : slice data 0 16 = keyHead slot e := by
    rw [same, keySlotData_eq, slice_left (Nat.le_refl 16), slice, List.drop_zero]
    exact List.take_of_length_le (Nat.le_refl 16)
  have good : ∀ j, j < 8 → decodeEmbedded (slice bytes (64 * j) 64) = .good := fun j hj => by
    rw [blocks j hj, decodeEmbedded_embedBlock (slice_length (by rw [keySlotData_length]; omega))]
  have fields : byteAt data 0 = 0x4B ∧ byteAt data 1 = slot ∧ byteAt data 2 = e.cls ∧ byteAt data 3 = e.station ∧
      fieldAt data 4 2 = e.length ∧ fieldAt data 6 2 = e.day ∧ fieldAt data 8 4 = e.seconds :=
    ⟨byteAt_within head (b := 0) rfl (by omega), (byteAt_within head (b := 1) rfl (by omega)).trans (byteAt_code rfl (by omega)),
      (byteAt_within head (b := 2) rfl (by omega)).trans (byteAt_code rfl (by omega)),
      (byteAt_within head (b := 3) rfl (by omega)).trans (byteAt_code rfl station),
      (fieldAt_within head (b := 4) rfl (by omega)).trans ((fieldAt_le 2 _ rfl).trans (Nat.mod_eq_of_lt (by omega))),
      (fieldAt_within head (b := 6) rfl (by omega)).trans ((fieldAt_le 2 _ rfl).trans (Nat.mod_eq_of_lt day)),
      (fieldAt_within head (b := 8) rfl (by omega)).trans ((fieldAt_le 4 _ rfl).trans (Nat.mod_eq_of_lt seconds))⟩
  obtain ⟨magic, hasSlot, hasClass, hasStation, hasLength, hasDay, hasSeconds⟩ := fields
  refine ⟨length, good, size, magic, hasSlot, hasClass, hasStation, hasLength, hasDay, hasSeconds, fun i low high => ?zeros,
    fun i hi => ?content, fun i low high => ?tail, ?header⟩
  case zeros =>
    have zeros : slice (keyHead slot e) 12 4 = [0, 0, 0, 0] := rfl
    rw [byteAt_within head (b := i) (by omega) high, byteAt_within zeros (b := i - 12) (by omega) (by omega)]
    interval_cases i <;> rfl
  case content =>
    have place : data.getD (16 + i) 0 = (padTo 448 0 (payload.take e.length)).getD i 0 := by
      rw [same, keySlotData_eq, List.getD_eq_getElem?_getD, List.getElem?_append_right (by rw [keyHead_length]; omega),
        keyHead_length, Nat.add_sub_cancel_left, List.getElem?_append_left (by rw [padTo_length]; exact hi),
        ← List.getD_eq_getElem?_getD]
    have long : (payload.take e.length).length = e.length := by
      rw [List.length_take, whole]
      omega
    rw [place, padTo_of_le (by omega), List.getD_eq_getElem?_getD]
    by_cases inside : i < e.length
    · rw [if_pos inside, List.getElem?_append_left (by omega), List.getElem?_take_of_lt inside, List.getD_eq_getElem?_getD]
    · rw [if_neg inside, List.getElem?_append_right (by omega), List.getElem?_replicate]
      split <;> rfl
  case tail =>
    have zeros : slice data 464 16 = List.replicate 16 0 := by
      rw [same, keySlotData_eq, slice_right (by rw [keyHead_length]; omega), keyHead_length,
        slice_right (by rw [padTo_length]), padTo_length]
      rfl
    rw [byteAt_within zeros (b := i - 464) (by omega) (by omega), byteAt_zeros]
  case header =>
    have block : embeddedData (slice bytes 0 64) = slice data 0 60 := by
      rw [blocks 0 (by omega), embeddedData_embedBlock (slice_length (by rw [keySlotData_length]; omega)), same]
    have inBlock : slice (slice data 0 60) 0 16 = slice data 0 16 := slice_slice data (by omega)
    have byte : ∀ i, i < 16 → byteAt (slice data 0 60) i = byteAt data i := fun i hi =>
      (byteAt_within inBlock (b := i) (by omega) hi).trans (byteAt_within rfl (by omega) hi).symm
    have field : ∀ i n, i + n ≤ 16 → fieldAt (slice data 0 60) i n = fieldAt data i n := fun i n hi =>
      (fieldAt_within inBlock (b := i) (by omega) hi).trans (fieldAt_within rfl (by omega) hi).symm
    rw [block, good 0 (by omega), keyHeader, byte 0 (by omega), byte 1 (by omega), byte 2 (by omega), byte 3 (by omega),
      field 4 2 (by omega), field 6 2 (by omega), field 8 4 (by omega), magic, hasSlot, hasClass, hasStation, hasLength, hasDay, hasSeconds]
    simp [Decode.trusted, least, most, shortest, longest]

end Sys2Proof.Machine
end

section
/-! Power and lines (R3, R14, R128, R133, R181): what a loss of power leaves in the flash, the lane reset, and the power-fail
warning; the statements O23, O24 and O25. -/

namespace Sys2Proof.Machine

/-! ## The flash at a loss of power (R3, log 7) -/

theorem Memory.get_setAll_other {a : Nat} : ∀ (cs : List Host.Cell) {m : Memory}, m.wf = true →
    (∀ c ∈ cs, c.1 % flashSize ≠ a) → Memory.get (Memory.setAll m cs) a = Memory.get m a
  | [], _, _, _ => rfl
  | c :: t, m, wf, other => by
    rw [List.forall_mem_cons] at other
    rw [Memory.setAll, Memory.get_setAll_other t (Memory.wf_set (Memory.mod_flashSize_lt _) wf) other.2,
      Memory.get_set_other _ (Ne.symm other.1) wf]

/-- The last value given for a byte is the one it holds. -/
theorem Memory.get_setAll_last {a : Nat} {v : Byte} (ha : a < flashSize) {post : List Host.Cell}
    (last : ∀ c ∈ post, c.1 % flashSize ≠ a) : ∀ (pre : List Host.Cell) {m : Memory}, m.wf = true →
    Memory.get (Memory.setAll m (pre ++ (a, v) :: post)) a = v
  | [], m, wf => by
    have here : a % flashSize = a := Nat.mod_eq_of_lt ha
    rw [List.nil_append, Memory.setAll]
    rw [here, Memory.get_setAll_other post (Memory.wf_set ha wf) last, Memory.get_set_same _ _ wf]
  | _ :: t, m, wf => Memory.get_setAll_last ha last t (Memory.wf_set (Memory.mod_flashSize_lt _) wf)

theorem Memory.wfFrom_mem : ∀ {lo : Nat} {m : Memory}, Memory.wfFrom lo m = true → ∀ {c : Host.Cell}, c ∈ m →
    lo ≤ c.1 ∧ c.1 < flashSize
  | _, [], _, _, hc => absurd hc List.not_mem_nil
  | lo, (x, v) :: t, wf, c, hc => by
    rw [Memory.wfFrom_cons] at wf
    obtain ⟨low, inFlash, -, wft⟩ := wf
    rcases List.mem_cons.mp hc with rfl | hc
    · exact ⟨low, inFlash⟩
    · obtain ⟨above, high⟩ := Memory.wfFrom_mem wft hc
      exact ⟨by omega, high⟩

/-- A memory's cells put over erased bytes give back the memory. -/
theorem Memory.get_setAll_wf {a : Nat} : ∀ (b : Memory) {lo : Nat} {m : Memory}, Memory.wfFrom lo b = true → m.wf = true →
    Memory.get m a = erasedByte → Memory.get (Memory.setAll m b) a = Memory.get b a
  | [], _, _, _, _, erased => erased
  | (x, v) :: t, lo, m, wfb, wf, erased => by
    rw [Memory.wfFrom_cons] at wfb
    obtain ⟨-, inFlash, -, wft⟩ := wfb
    have here : x % flashSize = x := Nat.mod_eq_of_lt inFlash
    have wf' := Memory.wf_set (v := v) inFlash wf
    rw [Memory.setAll, Memory.get]
    rw [here]
    by_cases same : a = x
    · subst same
      have above : ∀ c ∈ t, c.1 % flashSize ≠ a := fun c hc => by
        obtain ⟨low, high⟩ := Memory.wfFrom_mem wft hc
        rw [Nat.mod_eq_of_lt high]
        omega
      rw [Memory.get_setAll_other t wf' above, Memory.get_set_same _ _ wf, if_neg (Nat.lt_irrefl _), if_pos rfl]
    · rw [Memory.get_setAll_wf t wft wf' (by rw [Memory.get_set_other _ same wf, erased]), if_neg same]
      split
      · exact Memory.get_below wft (by omega)
      · rfl

section
variable {s : State} {o : FlashOp} {reached : List Host.Cell} {a : Nat}

/-- The cells a cut operation had reached, as far as they lie in its range. -/
def FlashOp.within (o : FlashOp) (reached : List Host.Cell) : List Host.Cell :=
  reached.filter fun c => decide (o.base ≤ c.1 ∧ c.1 < o.base + o.len)

theorem FlashOp.mem_within {c : Host.Cell} : c ∈ o.within reached ↔ c ∈ reached ∧ o.base ≤ c.1 ∧ c.1 < o.base + o.len := by
  rw [FlashOp.within, List.mem_filter, decide_eq_true_eq]

theorem Flash.cut_eq {f : Flash} (op : f.op = some o) :
    f.cut reached = Memory.setAll (Memory.setAll (Memory.erase f.cells o.base o.len) o.before) (o.within reached) := by
  rw [Flash.cut, op]
  rfl

/-- Outside the range of the operation a cut leaves every byte. -/
theorem Flash.get_cut_outside {f : Flash} (op : f.op = some o) (wf : Memory.wf f.cells = true) (fits : o.base + o.len ≤ flashSize)
    (inRange : ∀ c ∈ o.before, o.base ≤ c.1 ∧ c.1 < o.base + o.len) (outside : a < o.base ∨ o.base + o.len ≤ a) :
    Memory.get (f.cut reached) a = Memory.get f.cells a := by
  have apart : ∀ c : Host.Cell, o.base ≤ c.1 ∧ c.1 < o.base + o.len → c.1 % flashSize ≠ a := fun c hc => by
    rw [Nat.mod_eq_of_lt (by omega)]
    omega
  have wf' := Memory.wf_erase o.base o.len wf
  rw [Flash.cut_eq op, Memory.get_setAll_other _ (Memory.wf_setAll _ wf') fun c hc =>
      apart c (FlashOp.mem_within.mp hc).2,
    Memory.get_setAll_other _ wf' fun c hc => apart c (inRange c hc), Memory.get_erase_outside wf outside]

/-- A byte the operation had not reached holds what stood there before it. -/
theorem Flash.get_cut_unreached {f : Flash} (op : f.op = some o) (wf : Memory.wf f.cells = true) (before : Memory.wf o.before = true)
    (low : o.base ≤ a) (high : a < o.base + o.len) (unreached : ∀ c ∈ reached, c.1 % flashSize ≠ a) :
    Memory.get (f.cut reached) a = Memory.get o.before a := by
  have wf' := Memory.wf_erase o.base o.len wf
  rw [Flash.cut_eq op, Memory.get_setAll_other _ (Memory.wf_setAll _ wf') fun c hc => unreached c (FlashOp.mem_within.mp hc).1,
    Memory.get_setAll_wf _ before wf' (Memory.get_erase_inside wf low high)]

/-- A byte it had reached holds the last value given for it. -/
theorem Flash.get_cut_reached {f : Flash} (op : f.op = some o) (wf : Memory.wf f.cells = true) (fits : o.base + o.len ≤ flashSize)
    (low : o.base ≤ a) (high : a < o.base + o.len) {pre post : List Host.Cell} {v : Byte} (last : ∀ c ∈ post, c.1 ≠ a) :
    Memory.get (f.cut (pre ++ (a, v) :: post)) a = v := by
  have kept : o.within (pre ++ (a, v) :: post) = o.within pre ++ (a, v) :: o.within post := by
    rw [FlashOp.within, List.filter_append, List.filter_cons, if_pos (decide_eq_true ⟨low, high⟩)]
    rfl
  rw [Flash.cut_eq op, kept]
  refine Memory.get_setAll_last (by omega) (fun c hc => ?_) _ (Memory.wf_setAll _ (Memory.wf_erase _ _ wf))
  obtain ⟨mem, least, most⟩ := FlashOp.mem_within.mp hc
  rw [Nat.mod_eq_of_lt (by omega)]
  exact last c mem

end

/-- Settles O23: the state is the one before the load, whose lines follow it; the flash is the cut one. -/
theorem powerLossLeavesTheFlash : Obligations.PowerLossLeavesTheFlash := by
  intro reached s wf held
  refine ⟨(s.powerLoss reached).settle, rfl, rfl, fun idle => ?idle, fun o op a ha => ?cut⟩
  case idle =>
    show s.flash.cut reached = s.flash.cells
    rw [Flash.cut, idle]
  case cut =>
    obtain ⟨fits, before, inRange⟩ := held o op
    refine ⟨fun outside => Flash.get_cut_outside op wf fits inRange outside, fun low high unreached =>
      Flash.get_cut_unreached op wf before low high unreached, fun low high pre v post split last => ?_⟩
    rw [split]
    exact Flash.get_cut_reached op wf fits low high last

/-! ## The lane reset (R14, R15, R65) -/

theorem exec_laneReset (taken : Bool) {s : State} (rst : s.sysRst = false) (hold : s.sysHold = false) :
    exec (.laneReset taken) s = .next (s.laneReset taken).settle := by
  show Host.Outcome.next (State.settle _) = _
  rw [rst, hold]
  rfl

/-- A dropped transaction leaves all but the flash, the directory and the draws (log 8). -/
theorem State.dropTxn_eq (s : State) (taken : Bool) : s.dropTxn taken = { s with
    flash := (s.dropTxn taken).flash, region := (s.dropTxn taken).region, draws := (s.dropTxn taken).draws } := by
  refine State.dropTxn_keeps (P := fun x => x = { s with flash := x.flash, region := x.region, draws := x.draws }) taken
    (fun t _ _ h => ?_) (fun x a h => ?_) rfl
  · rw [State.flashTakes_eq]
  · rw [State.forgetProfile_eq, h]

theorem State.dropTxn_stands {s : State} (taken : Bool)
    (none : ∀ x, s.upstream = some x → x.ignored = true ∨ x.treatment ≠ .forwarded) : s.dropTxn taken = s := by
  unfold State.dropTxn
  split
  · rfl
  · rename_i t carried
    refine if_neg fun h => ?_
    rcases none t carried with ignored | other
    · exact absurd (h.1.symm.trans ignored) nofun
    · exact other h.2

/-- A dropped forwarded write reaches the flash as it may, and its profile header is forgotten (R170, log 8). -/
theorem State.dropTxn_forwarded {s : State} {x : Txn} (taken : Bool) (carried : s.upstream = some x) (served : x.ignored = false)
    (forwarded : x.treatment = .forwarded) :
    (s.dropTxn taken).flash.cells = (if taken = true then (s.flashTakes x).flash.cells else s.flash.cells) ∧
    (s.dropTxn taken).region = (if x.command.isWrite = true ∧ x.command ≠ .chipErase then (s.forgetProfile x.judgedAddr).region
      else s.region) := by
  have same : ∀ y : State, y.layout = s.layout → y.region = s.region → (y.forgetProfile x.judgedAddr).flash = y.flash ∧
      (y.forgetProfile x.judgedAddr).region = (s.forgetProfile x.judgedAddr).region := fun y layout region => by
    rw [State.forgetProfile_as layout region]
    exact ⟨rfl, rfl⟩
  have took : (s.flashTakes x).layout = s.layout ∧ (s.flashTakes x).region = s.region := by
    rw [State.flashTakes_eq]
    exact ⟨rfl, rfl⟩
  simp only [State.dropTxn, carried, served, forwarded, and_self, if_true]
  cases taken with
  | false =>
    simp only [Bool.false_eq_true, if_false]
    split
    · exact ⟨congrArg Flash.cells (same s rfl rfl).1, (same s rfl rfl).2⟩
    · exact ⟨rfl, rfl⟩
  | true =>
    simp only [if_true]
    split
    · exact ⟨congrArg Flash.cells (same _ took.1 took.2).1, (same _ took.1 took.2).2⟩
    · exact ⟨rfl, took.2⟩

/-- The lane reset but for the publish that waited for the panel read hold. -/
def State.laneDropped (s : State) (taken : Bool) : State :=
  { (s.dropTxn taken).cutRead with
    sysRst := true, upstream := none, shadow := false, grid := { s.grid with hold := false }
    frame0 := s.frame0.laneReset, frame1 := s.frame1.laneReset
    flash := if s.occupied then (s.dropTxn taken).flash else (s.dropTxn taken).flash.setLatch false }

theorem State.laneReset_eq (s : State) (taken : Bool) :
    s.laneReset taken = if s.grid.hold = true then (s.laneDropped taken).publishWaiting else s.laneDropped taken := by
  obtain ⟨f, r, n, dropped⟩ : ∃ f r n, s.dropTxn taken = { s with flash := f, region := r, draws := n } :=
    ⟨_, _, _, s.dropTxn_eq taken⟩
  unfold State.laneReset State.laneDropped State.releasePanel
  rw [dropped]
  by_cases held : s.grid.hold = true
  · exact (if_pos held).trans (if_pos held).symm
  · refine (if_neg held).trans (Eq.trans ?_ (if_neg held).symm)
    have unheld : { s.grid with hold := false } = s.grid := by
      rw [← (Bool.not_eq_true _ ▸ held : s.grid.hold = false)]
    rw [unheld]
    rfl

theorem Active.cut_eq : Active.cut = fun a => if a.phase = .occupied then a else { a with phase := .waiting } := by
  funext a
  unfold Active.cut
  cases a.phase <;> rfl

/-- Settles O24: the drop is followed by the transaction's treatment; the rest is fixed by the reset. -/
theorem laneResetDropsAndKeeps : Obligations.LaneResetDropsAndKeeps := by
  refine ⟨fun taken s rst hold => ?reset, fun taken s => ⟨fun rst => ?again, fun rst hold => ?held⟩, fun s => rfl⟩
  case again =>
    show Host.Outcome.next (State.settle _) = _
    rw [rst]
    rfl
  case held =>
    show Host.Outcome.next (State.settle _) = _
    rw [rst, hold]
    rfl
  case reset =>
    intro freed
    refine ⟨s.laneDropped taken, (exec_laneReset taken rst hold).trans (by rw [State.laneReset_eq]), ?whole, fun free => ?latch,
      fun none => ?stands, fun x carried served forwarded => ?forwarded⟩
    case whole =>
      rw [State.laneDropped, State.dropTxn_eq, State.cutRead, Active.cut_eq]
      rfl
    case latch =>
      simp only [State.laneDropped, free, Bool.false_eq_true, if_false, Flash.setLatch_latch]
    case stands =>
      have still := State.dropTxn_stands taken none
      simp only [State.laneDropped, still]
      cases s.occupied <;> exact ⟨rfl, rfl, rfl, rfl⟩
    case forwarded =>
      obtain ⟨cells, region⟩ := State.dropTxn_forwarded taken carried served forwarded
      rw [← cells, ← region, State.laneDropped]
      cases s.occupied <;> exact ⟨rfl, rfl⟩

/-! ## The power-fail warning (R128, R181) -/

theorem withdrawWarning_absent {q : List CondRecord} (absent : ∀ r ∈ q, r.cls ≠ .warning) : withdrawWarning q = q := by
  have found : q.find? (fun r => decide (r.cls = .warning)) = none := by
    rw [List.find?_eq_none]
    exact fun r hr => by simpa using absent r hr
  rw [withdrawWarning, found]

/-- The WARNING taken out, the queue closes up, and the newest record left takes over its marks. -/
theorem withdrawWarning_present {pre post : List CondRecord} {w : CondRecord} (warning : w.cls = .warning)
    (before : ∀ r ∈ pre, r.cls ≠ .warning) :
    withdrawWarning (pre ++ w :: post) = modifyLast (fun x => x.inherits w) (pre ++ post) := by
  have none : pre.find? (fun r => decide (r.cls = .warning)) = none := by
    rw [List.find?_eq_none]
    exact fun r hr => by simpa using before r hr
  have found : (pre ++ w :: post).find? (fun r => decide (r.cls = .warning)) = some w := by
    rw [List.find?_append, none, Option.none_or, List.find?_cons_of_pos (by simpa using warning)]
  have closed : (pre ++ w :: post).eraseP (fun r => decide (r.cls = .warning)) = pre ++ post := by
    rw [List.eraseP_append_right _ (fun r hr => by simpa using before r hr), List.eraseP_cons_of_pos (by simpa using warning)]
  rw [withdrawWarning, found]
  dsimp only
  rw [closed]

/-- The state in which the WARNING is withdrawn and the level gone. -/
def State.pfwGone (s : State) : State :=
  { s with pfw := false, conds := { s.conds with records := withdrawWarning s.conds.records } }

theorem State.pfwFall_eq {s : State} (pfw : s.pfw = true) : s.pfwFall =
    match s.seq.active with
    | some a => if s.jobPaused ∧ a.phase = .ready ∧ s.laneBusy = false then s.pfwGone.beginReady a else s.pfwGone
    | none => s.pfwGone := by
  unfold State.pfwFall
  rw [if_pos pfw]
  rfl

/-- The step a PAUSED job held at begins as SEQUENCER_STEP_BEGIN begins it. -/
theorem State.pfwFall_begins {s : State} {a : Active} {st : Step} {rest : List Step} (pfw : s.pfw = true)
    (active : s.seq.active = some a) (todo : a.todo = st :: rest) (ready : a.phase = .ready) (free : s.laneBusy = false)
    (writes : st.writes = true) : s.pfwFall = s.pfwGone.beginReady a := by
  have paused : s.jobPaused = true := by
    simp only [State.jobPaused, active, pfw, ready, todo, writes]
    rfl
  rw [State.pfwFall_eq pfw, active]
  exact if_pos ⟨paused, ready, free⟩

theorem State.pfwFall_waits {s : State} (pfw : s.pfw = true) (nothing : ∀ a st rest, s.seq.active = some a → a.todo = st :: rest →
    a.phase = .ready → s.laneBusy = false → st.writes = false) : s.pfwFall = s.pfwGone := by
  rw [State.pfwFall_eq pfw]
  cases active : s.seq.active with
  | none => rfl
  | some a =>
    refine if_neg fun ⟨paused, ready, free⟩ => ?_
    simp only [State.jobPaused, active, Bool.and_eq_true] at paused
    obtain ⟨-, writes⟩ := paused
    cases todo : a.todo with
    | nil => rw [todo] at writes; cases writes
    | cons st rest =>
      rw [todo] at writes
      exact absurd (writes.symm.trans (nothing a st rest active todo ready free)) nofun

/-- What the beginning of a step keeps of its job. -/
theorem State.withRecord_fields (s : State) (a : Active) : (s.withRecord a).job = a.job ∧ (s.withRecord a).todo = a.todo ∧
    (s.withRecord a).stage = a.stage ∧ (a.stage = .work → (s.withRecord a).data = a.data) := by
  refine ⟨?_, ?_, ?_, fun work => ?_⟩
  · rw [State.withRecord_eq]
  · rw [State.withRecord_eq]
  · rw [State.withRecord_eq]
  · rw [State.withRecord_keeps s a (fun e => absurd (work.symm.trans e) nofun)]

theorem State.beginStep_ready {s : State} {a : Active} (free : s.laneBusy = false) (active : s.seq.active = some a)
    (ready : a.phase = .ready) : s.beginStep = s.beginReady a := by
  simp only [State.beginStep, free, active, ready, Bool.false_eq_true, if_false]

theorem State.beginReady_held {s : State} {a : Active} {st : Step} {rest : List Step} (pfw : s.pfw = true)
    (todo : a.todo = st :: rest) (writes : st.writes = true) : s.beginReady a = s := by
  unfold State.beginReady
  rw [todo]
  cases st with
  | read => cases writes
  | erase => exact if_pos pfw
  | program => exact if_pos pfw

/-- Settles O25: the queue's closing up, and the held step's beginning as the sequencer's own. -/
theorem powerFailWarningPausesAndResumes : Obligations.PowerFailWarningPausesAndResumes := by
  refine ⟨fun s => rfl, fun s pfw => ?idle, fun s a st rest pfw active ready todo writes => ?held, fun s pfw => ⟨_, rfl,
    withdrawWarning_absent, fun pre w post queue warning before => ?withdrawn, ?resumes⟩⟩
  case idle =>
    refine congrArg (fun x : State => Host.Outcome.next x.settle) ?_
    exact if_neg (by rw [pfw]; nofun)
  case held =>
    refine congrArg (fun x : State => Host.Outcome.next x.settle) ?_
    cases busy : s.laneBusy with
    | true => exact if_pos busy
    | false => rw [State.beginStep_ready busy active ready, State.beginReady_held pfw todo writes]
  case withdrawn =>
    rw [queue, withdrawWarning_present warning before]
    refine ⟨fun empty => by rw [empty]; rfl, fun init x split => ?_⟩
    rw [split, modifyLast_append]
    rfl
  case resumes =>
    intro u
    refine ⟨fun nothing => ?waits, fun a st rest active todo ready free writes => ?begins, fun a rest free active ready =>
      ⟨fun x todo => ?erases, fun x bytes todo => ?programs⟩⟩
    case waits => exact congrArg (fun x : State => Host.Outcome.next x.settle) (State.pfwFall_waits pfw nothing)
    case begins =>
      refine congrArg (fun x : State => Host.Outcome.next x.settle) ?_
      rw [State.pfwFall_begins pfw active todo ready free writes]
      exact (State.beginStep_ready (s := u) free active ready).symm
    case erases =>
      obtain ⟨job, steps, stage, data⟩ := u.withRecord_fields a
      refine ⟨{ u.withRecord a with phase := .occupied }, congrArg (fun x : State => Host.Outcome.next x.settle) ?_, rfl, job, steps,
        stage, data⟩
      rw [State.pfwFall_begins pfw active todo ready free rfl, State.beginReady, todo]
      rfl
    case programs =>
      obtain ⟨job, steps, stage, data⟩ := u.withRecord_fields a
      refine ⟨{ u.withRecord a with phase := .occupied }, congrArg (fun x : State => Host.Outcome.next x.settle) ?_, rfl, job, steps,
        stage, data⟩
      rw [State.pfwFall_begins pfw active todo ready free rfl, State.beginReady, todo]
      rfl

end Sys2Proof.Machine
end

section
/-! How a job starts (R46, R122, R138, R162): the state at each kind's start. -/

namespace Sys2Proof.Machine

/-! ## The head job starts (R122) -/

/-- The state from which the head job starts. -/
def State.taking (s : State) (rest : List Job) : State := { s with seq := { s.seq with waiting := rest } }

theorem State.startFrom_busy {s : State} {l : Layout} (busy : s.seq.active ≠ none) (ws : List Job) : s.startFrom l ws = s := by
  cases ws with
  | nil => rfl
  | cons j t => exact if_neg (by rw [Option.isNone_iff_eq_none]; exact busy)

theorem State.startDue_head {s : State} {l : Layout} {j : Job} {rest : List Job} (layout : s.layout = some l)
    (idle : s.seq.active = none) (waiting : s.seq.waiting = j :: rest) :
    s.startDue = ((s.taking rest).startJob l j).startFrom l rest := by
  rw [State.startDue_laidOut layout, waiting, State.startFrom, if_pos (by rw [idle]; rfl)]
  rfl

/-- Every job but CLOSE_OUT is in progress as it starts. -/
theorem State.startJob_active (s : State) (l : Layout) {j : Job} (kind : j.kind ≠ .closeOut) : (s.startJob l j).seq.active ≠ none := by
  unfold State.startJob State.startKeyStore
  cases hk : j.kind with
  | closeOut => exact absurd hk kind
  | keyStore => dsimp only; split <;> nofun
  | _ => nofun

theorem State.startDue_starts {s : State} {l : Layout} {j : Job} {rest : List Job} (layout : s.layout = some l)
    (idle : s.seq.active = none) (waiting : s.seq.waiting = j :: rest) (kind : j.kind ≠ .closeOut) :
    s.startDue = (s.taking rest).startJob l j := by
  rw [State.startDue_head layout idle waiting, State.startFrom_busy (State.startJob_active _ l kind)]

/-- What a job has at its start: of the state its place, the grid lock of COMMIT_GRID and PARK, and a buffer that a rewrite empties. -/
def State.started (s : State) (a : Active) (buffer : List Byte) : State :=
  { s with
    seq := { s.seq with active := some a, buffer := buffer }
    grid := { s.grid with lock := if a.job.kind = .commitGrid ∨ a.job.kind = .park then some a.job.kind else s.grid.lock } }

/-- A rewrite's beginning at a job's start. -/
def State.rewriting (s : State) (l : Layout) (j : Job) (data : JobData) (rw : Rewrite) : State :=
  s.started (freshJob j data (rewriteReads l s.uniformityBlocks rw)) []

section
variable (s : State) (l : Layout) {j : Job}

theorem State.startJob_commitGrid (kind : j.kind = .commitGrid) : s.startJob l j = s.started
    (freshJob j { JobData.empty with grid := some s.grid, poisoned := s.grid.poisonedCount } (s.grid.commitSteps l)) s.seq.buffer := by
  simp only [State.startJob, kind, State.started, freshJob, true_or, if_true]
  rfl

theorem State.startJob_park (kind : j.kind = .park) : s.startJob l j = s.started
    (freshJob j { JobData.empty with grid := some s.grid, imageGen := s.nextRingGen }
      (parkSteps l (s.grid.parkImage s.nextRingGen s.scale))) s.seq.buffer := by
  simp only [State.startJob, kind, State.started, freshJob, or_true, if_true]
  rfl

theorem State.startJob_regionSelect (kind : j.kind = .regionSelect) : s.startJob l j = s.started
    (freshJob j JobData.empty [.read (profileAddr l j.slot) 64 .header]) s.seq.buffer := by
  simp only [State.startJob, kind, State.started, freshJob, reduceCtorEq, or_self, if_false]
  rfl

theorem State.startJob_scan (kind : j.kind = .scan) : s.startJob l j = s.started
    (freshJob j JobData.empty (s.scanSteps l)) s.seq.buffer := by
  simp only [State.startJob, kind, State.started, freshJob, reduceCtorEq, or_self, if_false]
  rfl

theorem State.startJob_keyErase (kind : j.kind = .keyErase) : s.startJob l j = s.rewriting l j JobData.empty
    { sector := sectorOf (keySlotAddr l j.slot), splice := some (keySlotAddr l j.slot, List.replicate 512 erasedByte)
      scrub := false, second := false } := by
  simp only [State.startJob, kind, State.rewriting, State.started, freshJob, reduceCtorEq, or_self, if_false, State.beginRewrite,
    List.append_nil]
  rfl

theorem State.startJob_scrub (kind : j.kind = .scrub) : s.startJob l j = s.rewriting l j JobData.empty
    { sector := j.sector, splice := none, scrub := true, second := false } := by
  simp only [State.startJob, kind, State.rewriting, State.started, freshJob, reduceCtorEq, or_self, if_false, State.beginRewrite,
    List.append_nil]
  rfl

/-- The bytes a KEY_STORE builds for its slot. -/
def State.builtSlot (s : State) (j : Job) : List Byte := keySlotBytes (keySlotData j.slot s.builtKey s.staging.payload)

theorem State.startJob_keyStore_empty (kind : j.kind = .keyStore) (empty : (s.keyEntry j.slot).prior = .empty) :
    s.startJob l j = s.started (freshJob j { JobData.empty with key := some (s.builtKey, s.builtSlot j) }
      [.read (keySlotAddr l j.slot) 512 .probeSlot]) s.seq.buffer := by
  simp only [State.startJob, kind, State.startKeyStore, empty, if_true, State.started, freshJob, reduceCtorEq, or_self, if_false]
  rfl

theorem State.startJob_keyStore_written (kind : j.kind = .keyStore) (written : (s.keyEntry j.slot).prior ≠ .empty) :
    s.startJob l j = s.rewriting l j { JobData.empty with key := some (s.builtKey, s.builtSlot j) }
      { sector := sectorOf (keySlotAddr l j.slot), splice := some (keySlotAddr l j.slot, s.builtSlot j), scrub := false
        second := false } := by
  simp only [State.startJob, kind, State.startKeyStore, written, State.rewriting, State.started, freshJob, reduceCtorEq, or_self,
    if_false, State.beginRewrite, List.append_nil]
  rfl

end

end Sys2Proof.Machine
end

section
/-! What a job reads and writes: the plans of COMMIT_GRID, PARK, SCAN and a rewrite (R129, R130, R140, R141, R144, R145); the
statement O57. -/

namespace Sys2Proof.Machine

/-! ## The committed image, block by block (R140, R141) -/

theorem slice_map_range {α : Type} (f : Nat → α) {N off n : Nat} (inside : off + n ≤ N) :
    slice ((List.range N).map f) off n = (List.range n).map fun o => f (off + o) := by
  refine List.ext_getElem ?_ fun i h _ => ?_
  · rw [slice_length (by rw [List.length_map, List.length_range]; exact inside), List.length_map, List.length_range]
  · simp only [slice, List.getElem_take, List.getElem_drop, List.getElem_map, List.getElem_range]

/-- The multiples of 64 up to a bound, one sector's worth of them. -/
theorem range_filter_div (blocks i : Nat) : (List.range blocks).filter (fun k => decide (k / 64 = i)) =
    (List.range (min 64 (blocks - 64 * i))).map fun j => 64 * i + j := by
  induction blocks with
  | zero => rw [Nat.zero_sub, Nat.min_zero]; rfl
  | succ b ih =>
    rw [List.range_succ, List.filter_append, ih]
    by_cases here : b / 64 = i
    · have more : min 64 (b + 1 - 64 * i) = min 64 (b - 64 * i) + 1 := by omega
      have place : 64 * i + min 64 (b - 64 * i) = b := by omega
      rw [more, List.range_succ, List.map_append, List.map_singleton, place, List.filter_singleton, decide_eq_true here]
      rfl
    · have same : min 64 (b + 1 - 64 * i) = min 64 (b - 64 * i) := by omega
      rw [same, List.filter_singleton, decide_eq_false here]
      exact List.append_nil _

/-- The bytes of block `i` of the committed image. -/
def Grid.imageBlock (g : Grid) (i : Nat) : List Byte :=
  (List.range 64).map fun o => if 64 * i + o < g.presentedLength then g.overlayByte (64 * i + o) else erasedByte

theorem Grid.imageBlock_length (g : Grid) (i : Nat) : (g.imageBlock i).length = 64 := by
  rw [Grid.imageBlock, List.length_map, List.length_range]

theorem Grid.image_length (g : Grid) : g.image.length = 64 * g.imageBlocks := by
  rw [Grid.image, List.length_map, List.length_range]

theorem Grid.image_block (g : Grid) {i : Nat} (inside : i < g.imageBlocks) : slice g.image (64 * i) 64 = g.imageBlock i :=
  slice_map_range _ (by omega)

/-- A sector of the image is its blocks, one behind another. -/
theorem Grid.image_sector (g : Grid) (i : Nat) : slice g.image (4096 * i) 4096 =
    ((List.range g.imageBlocks).filter fun k => decide (k / 64 = i)).flatMap g.imageBlock := by
  have length : (slice g.image (4096 * i) 4096).length = 64 * min 64 (g.imageBlocks - 64 * i) := by
    simp only [slice, List.length_take, List.length_drop, g.image_length]
    omega
  have whole := flatten_slices (slice g.image (4096 * i) 4096) 64 (min 64 (g.imageBlocks - 64 * i))
  rw [List.take_of_length_le (by omega)] at whole
  rw [range_filter_div, List.flatMap_map, List.flatMap_def, ← whole]
  refine congrArg List.flatten (List.map_congr_left fun j hj => ?_)
  rw [List.mem_range] at hj
  rw [slice_slice _ (by omega), show 4096 * i + 64 * j = 64 * (64 * i + j) by omega, g.image_block (by omega)]

theorem Grid.sectorBlocks_length (g : Grid) (ks : List Nat) : (ks.flatMap g.imageBlock).length = 64 * ks.length := by
  rw [List.flatMap_def, length_flatten_map g.imageBlock_length]

/-- The bytes that carry bits of a code, by the first and the last of its bits. -/
theorem codeOffsets_block (width k i : Nat) : i ∈ (codeOffsets width k).map (· / 64) ↔
    (if width = 6 then 32 + 6 * k / 8 else 32 + k) / 64 = i ∨ (if width = 6 then 32 + (6 * k + 5) / 8 else 32 + k) / 64 = i := by
  unfold codeOffsets
  by_cases six : width = 6
  · simp only [if_pos six]
    obtain ⟨q, r, rfl, hr⟩ : ∃ q r, k = 4 * q + r ∧ r < 4 := ⟨k / 4, k % 4, by omega, by omega⟩
    have quotient : (4 * q + r) / 4 = q := by omega
    have rest : (4 * q + r) % 4 = r := by omega
    rw [quotient, rest]
    match r, hr with
    | 0, _ | 1, _ | 2, _ | 3, _ =>
      simp only [List.map_cons, List.map_nil, List.mem_cons, List.not_mem_nil, or_false]
      omega
  · simp only [if_neg six, List.map_cons, List.map_nil, List.mem_cons, List.not_mem_nil, or_false, or_self]
    exact eq_comm

/-- Block `i` carries a bit of a marked zone-plane. -/
theorem Grid.poisonsBlock_eq (g : Grid) (i : Nat) : g.poisonsBlock i = (List.range (3 * g.zones)).any fun k =>
    g.marks.getD k false && decide ((if g.width = 6 then 32 + 6 * k / 8 else 32 + k) / 64 = i ∨
      (if g.width = 6 then 32 + (6 * k + 5) / 8 else 32 + k) / 64 = i) := by
  rw [Bool.eq_iff_iff, Grid.poisonsBlock, List.contains_iff_mem, Grid.poisonedBlocks, List.mem_flatten]
  simp only [List.mem_map, List.mem_filter, List.any_eq_true, Bool.and_eq_true, decide_eq_true_eq, ← codeOffsets_block]
  exact ⟨fun ⟨_, ⟨k, ⟨hk, marked⟩, e⟩, inside⟩ => ⟨k, hk, marked, List.mem_map.1 (e ▸ inside)⟩,
    fun ⟨k, hk, marked, inside⟩ => ⟨_, ⟨k, ⟨hk, marked⟩, rfl⟩, List.mem_map.2 inside⟩⟩

theorem Grid.checkTable_eq (g : Grid) : g.checkTable = (List.range g.imageBlocks).flatMap fun i =>
    if g.poisonsBlock i = true then poisonedCheckOf (g.imageBlock i) else checkOf (g.imageBlock i) := by
  rw [List.flatMap_def]
  refine congrArg List.flatten (List.map_congr_left fun i hi => ?_)
  rw [g.image_block (List.mem_range.1 hi)]
  rfl

theorem Grid.checkTable_length (g : Grid) : g.checkTable.length = 4 * g.imageBlocks := by
  rw [g.checkTable_eq, List.flatMap_def, length_flatten_map (c := 4), List.length_range]
  intro i
  split <;> simp only [poisonedCheckOf, checkOf, List.length_append, le_length]

theorem Grid.imageBlocks_pos (g : Grid) : 0 < g.imageBlocks := by
  unfold Grid.imageBlocks Grid.presentedLength presentedLengthOf ceilDiv
  split <;> omega

/-! ## The steps of a commit (R140) -/

theorem SectorWrite.verifySteps_panel {l : Layout} {w : SectorWrite} (form : w.form = .panel) : w.verifySteps l =
    if w.bytes = [] then [] else [.read l.panelCheck 1792 (.aside false), .read w.addr w.bytes.length (.verify w)] := by
  simp only [SectorWrite.verifySteps, form, List.isEmpty_iff]
  rfl

theorem SectorWrite.verifySteps_embedded {l : Layout} {w : SectorWrite} (form : w.form = .embedded) (some : w.bytes ≠ []) :
    w.verifySteps l = [.read w.addr w.bytes.length (.verify w)] := by
  simp only [SectorWrite.verifySteps, form, List.isEmpty_iff, if_neg some, List.nil_append]

theorem Grid.tableWrite_steps (g : Grid) (l : Layout) : (g.tableWrite l).steps l = [.erase l.panelCheck] ++
    pageSteps l.panelCheck g.checkTable ++ [.read l.panelCheck (4 * g.imageBlocks) (.verify (g.tableWrite l))] := by
  have some : g.checkTable.isEmpty = false := by
    rw [← Bool.not_eq_true, List.isEmpty_iff, ← List.length_eq_zero_iff, g.checkTable_length]
    have := g.imageBlocks_pos
    omega
  simp only [SectorWrite.steps, SectorWrite.body, SectorWrite.verifySteps, Grid.tableWrite, if_true, some, Bool.false_eq_true, if_false,
    g.checkTable_length, List.length_nil]
  rfl

/-- The writing of PANEL sector `i`: its blocks of the image. -/
theorem Grid.panelWrite_eq (g : Grid) (l : Layout) (i : Nat) : g.panelWrite l i =
    let mine := (List.range g.imageBlocks).filter fun k => decide (k / 64 = i)
    { sector := l.panel + 4096 * i, erased := true, addr := l.panel + 4096 * i, bytes := mine.flatMap g.imageBlock, form := .panel
      expects := mine.map fun k => if g.poisonsBlock k = true then .poisoned else .good, second := false } := by
  have blocks : (slice g.image (4096 * i) 4096).length / 64 = min 64 (g.imageBlocks - 64 * i) := by
    rw [g.image_sector, g.sectorBlocks_length, range_filter_div, List.length_map, List.length_range]
    omega
  simp only [Grid.panelWrite, blocks]
  rw [g.image_sector, range_filter_div, List.map_map]
  rfl

/-! ## The park image (R144) -/

theorem embedBlock_whole (data : List Byte) : (embedBlock data).length = 64 := by
  rw [embedBlock, List.length_append, padTo_length, checkOf, List.length_append, le_length, le_length]

theorem chunks60_length (bytes : List Byte) : (chunks60 bytes).length = (bytes.length + 59) / 60 := by
  rw [chunks60, List.length_map, List.length_range]
  rfl

theorem Grid.parkImage_length {g : Grid} (sound : g.sound) (gen scale : Nat) : (g.parkImage gen scale).length =
    64 * (2 + (3 * g.zones + 59) / 60 + (3 * g.zones + 479) / 480) := by
  rw [Grid.parkImage, length_flatten_map embedBlock_whole, Grid.parkBlocks]
  obtain ⟨-, codes, marks, -⟩ := sound
  have packed : (packMarks g.marks).length = (3 * g.zones + 7) / 8 := by
    rw [packMarks, List.length_map, List.length_range, marks]
    rfl
  simp only [List.length_append, List.length_cons, List.length_nil, chunks60_length, List.length_map, codes, packed]
  omega

theorem Grid.parkImage_fields {g : Grid} (sound : g.sound) (gen scale : Nat) :
    let h := g.parkImage gen scale
    fieldAt h 0 4 = gen % 4294967296 ∧ fieldAt h 4 4 = g.generation ∧ byteAt h 8 = g.cols ∧ byteAt h 9 = g.rows ∧
    byteAt h 10 = g.width ∧ byteAt h 11 = g.shift ∧ fieldAt h 12 2 = scale % 65536 := by
  obtain ⟨cols, rows, -⟩ := Grid.sound_bounds sound
  obtain ⟨-, -, -, -, width, shift, generation, mark⟩ := sound
  unfold genMax at mark
  obtain ⟨rest, whole⟩ : ∃ rest, g.parkImage gen scale = le 4 gen ++ le 4 g.generation ++ [BitVec.ofNat 8 g.cols,
      BitVec.ofNat 8 g.rows, BitVec.ofNat 8 g.width, BitVec.ofNat 8 g.shift] ++ le 2 scale ++ rest := by
    rw [Grid.parkImage, Grid.parkBlocks]
    simp only [List.cons_append, List.map_cons, List.flatten_cons]
    rw [embedBlock, padTo_of_le (by simp only [List.length_append, le_length, List.length_cons, List.length_nil]; omega)]
    simp only [List.append_assoc, List.cons_append, List.nil_append]
    exact ⟨_, rfl⟩
  simp only [le, List.cons_append, List.nil_append] at whole
  rw [whole]
  exact ⟨fieldAt_le 4 gen rfl, (fieldAt_le 4 g.generation rfl).trans (Nat.mod_eq_of_lt (by omega)), byteAt_code rfl (by omega),
    byteAt_code rfl (by omega), byteAt_code rfl (by omega), byteAt_code rfl (by omega), fieldAt_le 2 scale rfl⟩

/-! ## Rewrites and scans (R129, R130) -/

theorem Layout.formOf_panel {l : Layout} {sector : Nat} (inside : l.panel ≤ sector ∧ sector < l.panel + 28672) :
    l.formOf sector = .panel := if_pos ((l.inWindow_iff .panel sector).2 inside)

theorem Layout.formOf_other {l : Layout} {sector : Nat} (outside : ¬(l.panel ≤ sector ∧ sector < l.panel + 28672)) :
    l.formOf sector = if sector = l.panelCheck then .checkTable else .embedded :=
  if_neg fun inside => outside ((l.inWindow_iff .panel sector).1 inside)

theorem rewriteReads_table {l : Layout} {rw : Rewrite} (form : l.formOf rw.sector = .checkTable) (blocks : Nat) :
    rewriteReads l blocks rw = if 1 ≤ panelSectors blocks then
      loadSteps rw.sector .loadPage ++ (List.range (panelSectors blocks)).map (fun i =>
        .read (l.panel + 4096 * i) 4096 (if i + 1 = panelSectors blocks then .plan false rw else .aside (decide (i ≠ 0))))
    else loadSteps rw.sector (.plan true rw) := by
  rw [rewriteReads, form]
  cases panelSectors blocks with
  | zero => rfl
  | succ n =>
    have earlier : panelReads l n = (List.range n).map fun i =>
        .read (l.panel + 4096 * i) 4096 (if i + 1 = n + 1 then .plan false rw else .aside (decide (i ≠ 0))) :=
      List.map_congr_left fun i hi => by rw [if_neg (by rw [List.mem_range] at hi; omega)]
    dsimp only
    rw [if_pos (Nat.le_add_left 1 n), List.range_succ, List.map_append, List.map_singleton, if_pos rfl, ← earlier, List.append_assoc]

/-! ## The statement O57 -/

/-- What a job of each kind but CLOSE_OUT has to do at its start, with what data and buffer. -/
def State.Begins (s : State) (l : Layout) (j : Job) (a : Active) (buffer : List Byte) : Prop :=
  let gen := match s.latest with | some x => x.record.ringGen + 1 | none => 1
  let keyAddr := l.keys + 512 * j.slot
  let rewrite := fun (rw : Rewrite) => a.todo = rewriteReads l s.uniformityBlocks rw ∧ buffer = [] ∧ rw.second = false
  (j.kind ≠ .commitGrid → j.kind ≠ .park → j.kind ≠ .keyStore → a.data = JobData.empty) ∧
  (j.kind = .commitGrid → buffer = s.seq.buffer ∧ a.data = { JobData.empty with
      grid := some s.grid, poisoned := s.grid.poisonedCount } ∧ a.todo = s.grid.commitSteps l ∧ a.todo.head? = some (.erase l.panel)) ∧
  (j.kind = .park → buffer = s.seq.buffer ∧ a.data = { JobData.empty with grid := some s.grid, imageGen := gen } ∧
    a.todo = parkSteps l (s.grid.parkImage gen s.scale)) ∧
  (j.kind = .keyStore →
    let content := keySlotBytes (keySlotData j.slot s.builtKey s.staging.payload)
    a.data = { JobData.empty with key := some (s.builtKey, content) } ∧
    ((s.keyEntry j.slot).prior = .empty → buffer = s.seq.buffer ∧ a.todo = [.read keyAddr 512 .probeSlot]) ∧
    ((s.keyEntry j.slot).prior ≠ .empty → rewrite
      { sector := keyAddr / 4096 * 4096, splice := some (keyAddr, content), scrub := false, second := false })) ∧
  (j.kind = .keyErase → rewrite
    { sector := keyAddr / 4096 * 4096, splice := some (keyAddr, List.replicate 512 0xFF), scrub := false, second := false }) ∧
  (j.kind = .regionSelect → buffer = s.seq.buffer ∧ a.todo = [.read (l.profiles + 65536 * j.slot) 64 .header]) ∧
  (j.kind = .scan → buffer = s.seq.buffer ∧ a.todo = s.scanSteps l) ∧
  (j.kind = .scrub → rewrite { sector := j.sector, splice := none, scrub := true, second := false })

theorem State.startJob_begins (s : State) (l : Layout) {j : Job} (rest : List Job) (kind : j.kind ≠ .closeOut) :
    ∃ a b, (s.taking rest).startJob l j = (s.taking rest).started a b ∧ a = freshJob j a.data a.todo ∧ s.Begins l j a b := by
  unfold State.Begins
  cases hk : j.kind with
  | closeOut => exact absurd hk kind
  | commitGrid =>
    exact ⟨_, _, State.startJob_commitGrid _ l hk, rfl, ⟨fun h => absurd rfl h, fun _ => ⟨rfl, rfl, rfl, rfl⟩, nofun, nofun, nofun, nofun, nofun, nofun⟩⟩
  | park =>
    exact ⟨_, _, State.startJob_park _ l hk, rfl, ⟨fun _ h => absurd rfl h, nofun, fun _ => ⟨rfl, rfl, rfl⟩, nofun, nofun, nofun, nofun, nofun⟩⟩
  | keyStore =>
    by_cases empty : (s.keyEntry j.slot).prior = .empty
    · exact ⟨_, _, State.startJob_keyStore_empty _ l hk empty, rfl, ⟨fun _ _ h => absurd rfl h, nofun, nofun, fun _ => ⟨rfl, fun _ => ⟨rfl, rfl⟩, fun written => absurd empty written⟩, nofun, nofun, nofun, nofun⟩⟩
    · exact ⟨_, _, State.startJob_keyStore_written _ l hk empty, rfl, ⟨fun _ _ h => absurd rfl h, nofun, nofun, fun _ => ⟨rfl, fun now => absurd now empty, fun _ => ⟨rfl, rfl, rfl⟩⟩, nofun, nofun, nofun, nofun⟩⟩
  | keyErase =>
    exact ⟨_, _, State.startJob_keyErase _ l hk, rfl, ⟨fun _ _ _ => rfl, nofun, nofun, nofun, fun _ => ⟨rfl, rfl, rfl⟩, nofun, nofun, nofun⟩⟩
  | regionSelect =>
    exact ⟨_, _, State.startJob_regionSelect _ l hk, rfl, ⟨fun _ _ _ => rfl, nofun, nofun, nofun, nofun, fun _ => ⟨rfl, rfl⟩, nofun, nofun⟩⟩
  | scan =>
    exact ⟨_, _, State.startJob_scan _ l hk, rfl, ⟨fun _ _ _ => rfl, nofun, nofun, nofun, nofun, nofun, fun _ => ⟨rfl, rfl⟩, nofun⟩⟩
  | scrub =>
    exact ⟨_, _, State.startJob_scrub _ l hk, rfl, ⟨fun _ _ _ => rfl, nofun, nofun, nofun, nofun, nofun, nofun, fun _ => ⟨rfl, rfl, rfl⟩⟩⟩

/-- The record of a close-out goes where the next record goes (R138). -/
theorem State.startAppend_probes {s : State} {l : Layout} {a : Active}
    (left : ∀ x, s.latest = some x → x.record.ringGen < 4294967295) : s.startAppend l a =
      s.probeSlotOfRing l a (match s.latest with | some x => (x.slot + 1) % 128 | none => 0) := by
  unfold State.startAppend
  cases hl : s.latest with
  | none => rfl
  | some x =>
    have := left x hl
    exact if_neg (by unfold genMax; omega)

theorem State.startAppend_exhausted {s : State} {l : Layout} {a : Active} {x : Latest} (latest : s.latest = some x)
    (full : 4294967295 ≤ x.record.ringGen) : s.startAppend l a = s.failJob a l.ring := by
  rw [State.startAppend, latest]
  exact if_pos full

/-- A CLOSE_OUT job that cannot append ends with its report and its outcome entry alone (R127, R138). -/
theorem State.failJob_closeOut {s : State} {j : Job} (l : Layout) (rest : List Job) (kind : j.kind = .closeOut)
    (idle : s.seq.active = none) : (s.taking rest).failJob (freshJob j JobData.empty []) l.ring =
      { s.raise { cls := .jobFailed, address := some l.ring } with
        seq := { s.seq with waiting := rest }
        intake := { s.intake with outcomes := modifyAt s.intake.outcomes 5 (fun e =>
          { tag := j.tag, outcome := .verifyFailed, count := (e.count + 1) % 256, ringGen := 0 }) } } := by
  have still : ({ s.seq with active := none, waiting := rest } : Sequencer) = { s.seq with waiting := rest } := by rw [← idle]
  rw [State.failJob, State.raise_as (s := s) (u := s.taking rest) rfl rfl rfl, s.raise_eq, ← still]
  unfold State.endJob State.endActions
  simp only [freshJob, kind]
  rfl

/-- The panel reads of a SCAN, of a record in use alone (R130). -/
def State.scanned (s : State) (l : Layout) : List Step :=
  match s.latest with
  | some x =>
    if x.record.uniformityValid && x.record.uniformitySound then scanPanelSteps l (ceilDiv x.record.uniLength 64) else []
  | none => []

/-- Settles O57: the head job starts through `State.startDue_head`, with what `State.startJob_begins` gives for its kind; each plan
is spelled from the blocks of its image. -/
theorem jobsStartOneAtATime : Obligations.JobsStartOneAtATime := by
  unfold Obligations.JobsStartOneAtATime
  refine ⟨fun _ => rfl, fun s l j rest layout idle waiting => ⟨fun kind => ?started, fun kind left => ?closes, fun kind exhausted => ?fails⟩,
    fun s still => ?idles, fun s l => ⟨rfl, ?blocks, fun unsound => ?unsound, fun x latest sound => ?sound⟩, fun l blocks rw => ?rewrite,
    fun g l => ?commit, fun g gen scale sound => ⟨Grid.parkImage_length sound gen scale, Grid.parkImage_fields sound gen scale⟩,
    fun l image => ?park⟩
  case started =>
    obtain ⟨a, b, starts, fresh, begins⟩ := s.startJob_begins l rest kind
    refine ⟨_, a, congrArg (fun x : State => Host.Outcome.next x.settle)
      ((State.startDue_starts layout idle waiting kind).trans starts), ?_, fresh, begins⟩
    rw [fresh]
    rfl
  case closes =>
    refine ⟨_, congrArg (fun x : State => Host.Outcome.next x.settle) ?_, rfl⟩
    rw [State.startDue_head layout idle waiting, State.startJob, kind]
    dsimp only
    rw [State.startAppend_probes (s := s.taking rest) left, State.startFrom_busy (by nofun)]
    rfl
  case fails =>
    obtain ⟨x, latest, full⟩ := exhausted
    refine congrArg (fun x : State => Host.Outcome.next x.settle) ?_
    rw [State.startDue_head layout idle waiting, State.startJob, kind]
    dsimp only
    rw [State.startAppend_exhausted (s := s.taking rest) latest full, State.failJob_closeOut l rest kind idle]
    refine (State.startDue_laidOut ?_).symm
    rw [s.raise_eq]
    exact layout
  case idles =>
    refine congrArg (fun x : State => Host.Outcome.next x.settle) ?_
    rcases still with busy | none
    · obtain ⟨a, active⟩ := Option.ne_none_iff_exists'.1 busy
      exact State.startDue_busy active
    · exact State.startDue_empty none
  case blocks =>
    unfold State.uniformityBlocks
    cases s.latest <;> rfl
  case unsound =>
    have none : s.scanned l = [] := by
      unfold State.scanned
      cases hl : s.latest with
      | none => rfl
      | some x =>
        refine if_neg fun h => unsound x hl ?_
        obtain ⟨valid, fits⟩ := (Bool.and_eq_true _ _).mp h
        obtain ⟨⟨cols1, cols⟩, ⟨rows1, rows⟩, width, shift, length⟩ := x.record.uniformitySound_iff.1 fits
        exact ⟨valid, cols1, cols, rows1, rows, width, shift, length⟩
    exact (congrArg (_ ++ ·) none).trans (List.append_nil _)
  case sound =>
    obtain ⟨valid, cols1, cols, rows1, rows, width, shift, length⟩ := sound
    have fits := x.record.uniformitySound_iff.2 ⟨⟨cols1, cols⟩, ⟨rows1, rows⟩, width, shift, length⟩
    have found : s.scanned l = scanPanelSteps l (ceilDiv x.record.uniLength 64) := by
      rw [State.scanned, latest]
      exact if_pos (by rw [valid, fits]; rfl)
    exact congrArg (_ ++ ·) found
  case rewrite =>
    intro n pages
    by_cases inside : l.panel ≤ rw.sector ∧ rw.sector < l.panel + 28672
    · rw [if_pos inside, rewriteReads, Layout.formOf_panel inside]
      rfl
    rw [if_neg inside]
    by_cases table : rw.sector = l.panelCheck
    · rw [rewriteReads_table (by rw [Layout.formOf_other inside, if_pos table])]
      by_cases some : 1 ≤ n
      · exact (if_pos some).trans (if_pos ⟨table, some⟩).symm
      · exact (if_neg some).trans (if_neg fun h => some h.2).symm
    · rw [if_neg (fun h => table h.1), rewriteReads, Layout.formOf_other inside, if_neg table]
      rfl
  case commit =>
    intro len blocks block first last poisoned table write
    have poisons : poisoned = g.poisonsBlock := funext fun i => (g.poisonsBlock_eq i).symm
    have checks : g.checkTable = table := by
      rw [g.checkTable_eq, ← poisons]
      rfl
    have body : ∀ i, (g.panelWrite l i).body l = write i := fun i => by
      rw [SectorWrite.body, SectorWrite.verifySteps_panel rfl, g.panelWrite_eq, ← poisons]
      rfl
    have later : ∀ i, (g.panelWrite l i).steps l = .erase (l.panel + 4096 * i) :: write i := fun i => by
      rw [← body i]
      rfl
    refine ⟨by rw [poisons]; rfl, ?_⟩
    rw [Grid.commitSteps, g.tableWrite_steps, Grid.tableWrite, checks, body, List.flatMap_def]
    simp only [later]
    rfl
  case park =>
    rw [parkSteps, List.flatMap_def]
    refine congrArg List.flatten (List.map_congr_left fun i hi => ?_)
    rw [List.mem_range] at hi
    have some : slice image (4096 * i) 4096 ≠ [] := fun h => by
      have := congrArg List.length h
      simp only [slice, List.length_take, List.length_drop, List.length_nil] at this
      unfold ceilDiv at hi
      omega
    rw [SectorWrite.steps, SectorWrite.body, SectorWrite.verifySteps_embedded rfl some]
    rfl

end Sys2Proof.Machine
end

section
/-! How a job's steps begin and how its work ends: the step's beginning with the append's record (R124, R136), the append's
target and the job's failure (R127, R138); the statement O58. -/

namespace Sys2Proof.Machine

/-! ## A job's end (R127) -/

/-- No job is in progress, and the ending stands in the outcome table. -/
def State.ended (s : State) (a : Active) (o : JobOutcome) (ringGen : Nat) : State :=
  { s with
    seq := { s.seq with active := none }
    intake := { s.intake with outcomes := modifyAt s.intake.outcomes (a.job.kind.code - 1) fun e =>
      { tag := a.job.tag, outcome := o, count := (e.count + 1) % 256, ringGen := ringGen } } }

theorem State.endJob_eq (s : State) (a : Active) (o : JobOutcome) (g : Nat) :
    s.endJob a o g = (s.ended a o g).endActions a (decide (o = .done ∨ o = .donePoisoned)) := rfl

/-- The state in which a failed job has reported and ended, but for its end actions. -/
def State.failed (s : State) (a : Active) (sector : Nat) : State :=
  (s.raise { cls := .jobFailed, address := some sector }).ended a .verifyFailed 0

section
variable {s : State} {a : Active} (sector : Nat)

theorem State.failJob_grid (kind : a.job.kind = .commitGrid ∨ a.job.kind = .park) :
    s.failJob a sector = (s.failed a sector).unlock := by
  rw [State.failJob, State.endJob_eq]
  unfold State.endActions
  rcases kind with kind | kind <;> rw [kind] <;> rfl

theorem State.failJob_keyStore (kind : a.job.kind = .keyStore) :
    s.failJob a sector = ((s.failed a sector).damageKey a.job.slot KeyEntry.empty).clearStaging := by
  rw [State.failJob, State.endJob_eq]
  unfold State.endActions
  rw [kind]
  rfl

theorem State.failJob_keyErase (kind : a.job.kind = .keyErase) :
    s.failJob a sector = (s.failed a sector).damageKey a.job.slot KeyEntry.empty := by
  rw [State.failJob, State.endJob_eq]
  unfold State.endActions
  rw [kind]
  rfl

theorem State.failJob_plain (kind : a.job.kind = .regionSelect ∨ a.job.kind = .closeOut ∨ a.job.kind = .scrub) :
    s.failJob a sector = s.failed a sector := by
  rw [State.failJob, State.endJob_eq]
  unfold State.endActions
  rcases kind with kind | kind | kind <;> rw [kind] <;> rfl

end

/-! ## From one step to the next (R137, R138) -/

section
variable {s : State} {l : Layout} {a : Active} {rest : List Step}

theorem State.proceed_next (more : rest ≠ []) : s.proceed l a rest = s.withActive { a with todo := rest, phase := .waiting } := by
  cases rest with
  | nil => exact absurd rfl more
  | cons st t => rfl

theorem State.proceed_work (stage : a.stage = .work) (appends : a.job.kind.appendsNone = false) :
    s.proceed l a [] = s.startAppend l a := by
  simp only [State.proceed, stage, appends, Bool.false_eq_true, if_false]

theorem JobKind.appendsNone_eq {k : JobKind} (scan : k ≠ .scan) (scrub : k ≠ .scrub) : k.appendsNone = false := by
  cases k with
  | scan => exact absurd rfl scan
  | scrub => exact absurd rfl scrub
  | _ => rfl

/-- A job that stays in progress lets no other start. -/
theorem State.startDue_withActive (s : State) (b : Active) : (s.withActive b).startDue = s.withActive b :=
  State.startDue_busy rfl

end

/-! ## A step begins (R124) -/

theorem State.mem_heldClasses {s : State} {slot c : Nat} : c ∈ s.heldClasses slot ↔
    ∃ k < s.keys.length, k ≠ slot ∧ (s.keyEntry k).cls = c ∧ ((s.keyEntry k).state = .present ∨
      ((s.keyEntry k).state = .pending ∧ (s.keyEntry k).erasing = true ∧ (s.keyEntry k).prior = .present)) := by
  simp only [State.heldClasses, List.mem_map, List.mem_filter, Bool.and_eq_true, Bool.or_eq_true, decide_eq_true_eq, and_assoc]
  constructor
  · rintro ⟨⟨e, k⟩, mem, other, state, cls⟩
    rw [List.mem_zipIdx_iff_getElem?] at mem
    obtain ⟨inside, at'⟩ := List.getElem?_eq_some_iff.mp mem
    have entry : s.keyEntry k = e := by rw [State.keyEntry, List.getD_eq_getElem _ _ inside]; exact at'
    exact ⟨k, inside, other, by rw [entry]; exact ⟨cls, state⟩⟩
  · rintro ⟨k, inside, other, cls, state⟩
    have entry : s.keyEntry k = s.keys[k] := by rw [State.keyEntry, List.getD_eq_getElem _ _ inside]
    rw [entry] at cls state
    exact ⟨(s.keys[k], k), by rw [List.mem_zipIdx_iff_getElem?]; exact List.getElem?_eq_getElem inside, other, state, cls⟩

/-- A key class set holds the classes 1 to 15 of a list. -/
theorem classBits_cons (c : Nat) (cs : List Nat) (x : Nat) : (classBits (c :: cs)).testBit x = true ↔
    1 ≤ x ∧ x ≤ 15 ∧ (x = c ∨ x ∈ cs) := by
  rw [classBits_testBit, decide_eq_true_eq, List.mem_cons]

theorem State.laneBusy_begins {s : State} (busy : s.laneBusy = true) : s.beginStep = s := if_pos busy

theorem State.beginStep_waiting {s : State} {a : Active} (free : s.laneBusy = false) (active : s.seq.active = some a)
    (waiting : a.phase = .waiting) : s.beginStep = s.withActive { a with phase := .polling } := by
  simp only [State.beginStep, free, active, waiting, Bool.false_eq_true, if_false]

/-- The record of the first step of an append to begin. -/
theorem State.withRecord_append {s : State} {a : Active} (stage : a.stage = .append) (none : a.data.record = none) :
    (s.withRecord a).data.record = some (s.buildRecord a) := by
  rw [State.withRecord, if_pos ⟨stage, none⟩]

/-- The fields a commit record has of its own kind (R143, R146, R163, R172, R176). -/
theorem State.buildRecord_kind (s : State) (a : Active) :
    (∀ g, a.job.kind = .commitGrid → a.data.grid = some g → s.buildRecord a = { s.commonRecord .uniformity with
      uniformityValid := true, uniGen := g.generation, uniLength := g.presentedLength, width := g.width, shift := g.shift
      cols := g.cols, rows := g.rows, poisoned := a.data.poisoned, unknown := g.markCount }) ∧
    (∀ g, a.job.kind = .park → a.data.grid = some g → s.buildRecord a =
      { s.commonRecord .park with parkValid := true, parkGen := g.generation, parkImage := a.data.imageGen }) ∧
    (∀ e content, a.job.kind = .keyStore → a.data.key = some (e, content) → s.buildRecord a =
      { s.commonRecord .keys with keySet := classBits (e.cls :: s.heldClasses a.job.slot) }) ∧
    (a.job.kind = .keyErase → s.buildRecord a = { s.commonRecord .keys with keySet := classBits (s.heldClasses a.job.slot) }) ∧
    (∀ h, a.job.kind = .regionSelect → a.data.header = some h → s.buildRecord a = { s.commonRecord .region with
      regionValid := true, regionSlot := a.job.slot, profileId := h.id, regionScale := h.scale }) ∧
    (a.job.kind = .closeOut → s.buildRecord a = { s.commonRecord .closeOut with closed := true }) := by
  unfold State.buildRecord
  refine ⟨fun g kind grid => ?_, fun g kind grid => ?_, fun e content kind key => ?_, fun kind => ?_, fun h kind header => ?_,
    fun kind => ?_⟩
  · rw [kind, grid]; rfl
  · rw [kind, grid]; rfl
  · rw [kind, key]; rfl
  · rw [kind]
  · rw [kind, header]
  · rw [kind]

/-- Settles O58: each step begins as `State.beginReady` has it, and an occupied period's end leads on by `State.proceed`. -/
theorem stepsBeginWhileTheLaneIsFree : Obligations.StepsBeginWhileTheLaneIsFree := by
  have next : ∀ {x y : State}, x = y → Host.Outcome.next x.settle = (Host.Outcome.next y.settle : Host.Outcome State Fault Refusal) :=
    fun h => congrArg (fun x : State => Host.Outcome.next x.settle) h
  refine ⟨fun s busy => next (State.laneBusy_begins busy), fun s a free active waiting => next (State.beginStep_waiting free active waiting),
    fun s a st rest free active ready todo => ?begins, fun s l a st rest layout active occupied todo => ?ends, fun s idle => ?idle⟩
  case begins =>
    intro copied common held appends begun
    have step := State.beginStep_ready free active ready
    have built : ∀ ph, begun { s.withRecord a with phase := ph } ph := fun ph => by
      refine ⟨?_, fun work => ?_, fun append => ⟨fun r has => ?_, fun none => ⟨_, State.withRecord_append append none, ?_⟩⟩⟩
      · rw [State.withRecord_eq]
      · rw [State.withRecord_keeps s a fun e => absurd (work.symm.trans e) nofun]
      · rw [State.withRecord_keeps s a fun _ e => absurd (has.symm.trans e) nofun]
        exact has
      · obtain ⟨commit, park, store, erase, region, close⟩ := s.buildRecord_kind a
        refine ⟨commit, park, fun e content kind key => ?_, fun kind => ?_, region, close⟩
        · rw [store e content kind key]
          exact ⟨rfl, fun c => (classBits_cons e.cls _ c).trans
            (and_congr_right fun _ => and_congr_right fun _ => or_congr_right State.mem_heldClasses)⟩
        · rw [erase kind]
          refine ⟨rfl, fun c => ?_⟩
          rw [classBits_testBit, decide_eq_true_eq]
          exact and_congr_right fun _ => and_congr_right fun _ => State.mem_heldClasses
    refine ⟨fun pfw writes => ?_, fun x pfw e => ?_, fun x bytes pfw e => ?_, fun x n u e => ?_⟩
    · exact next (step.trans (State.beginReady_held pfw todo writes))
    · refine ⟨_, built .occupied, next (step.trans ?_)⟩
      rw [State.beginReady, todo, e]
      exact if_neg (by rw [pfw]; nofun)
    · refine ⟨_, built .occupied, next (step.trans ?_)⟩
      rw [State.beginReady, todo, e]
      exact if_neg (by rw [pfw]; nofun)
    · refine ⟨_, built .reading, next (step.trans ?_)⟩
      rw [State.beginReady, todo, e]
  case ends =>
    intro u after
    have step : exec .occupiedPeriodEnd s = .next (State.settle (u.proceed l a rest).startDue) := by
      refine congrArg (fun x : State => Host.Outcome.next x.settle) ?_
      rw [State.withLayout, layout]
      dsimp only
      rw [State.endOccupied, active]
      dsimp only
      rw [if_pos occupied, todo]
      rfl
    refine ⟨fun more => ?_, fun last work scan scrub left => ?_, fun last work y latest full => ?_⟩
    · rw [step, State.proceed_next more, State.startDue_withActive]
    · rw [step, last, State.proceed_work work (JobKind.appendsNone_eq scan scrub), State.startAppend_probes (s := u) left]
      exact next (State.startDue_withActive _ _)
    · intro v e does damaged
      have fails : ∀ {t : State}, a.job.kind.appendsNone = false → u.failJob a l.ring = t → does t.startDue := fun appends failed => by
        show exec .occupiedPeriodEnd s = _
        rw [step, last, State.proceed_work work appends, State.startAppend_exhausted (s := u) latest full, failed]
      exact ⟨fun kind => fails (by rcases kind with kind | kind <;> rw [kind] <;> rfl) (State.failJob_grid l.ring kind),
        fun kind => fails (by rw [kind]; rfl) (State.failJob_keyStore l.ring kind),
        fun kind => fails (by rw [kind]; rfl) (State.failJob_keyErase l.ring kind),
        fun kind => fails (by rcases kind with kind | kind <;> rw [kind] <;> rfl)
          (State.failJob_plain l.ring (kind.imp_right .inl))⟩
  case idle =>
    refine next ?_
    rw [State.withLayout]
    cases s.layout with
    | none => rfl
    | some l =>
      dsimp only
      rw [State.endOccupied]
      cases active : s.seq.active with
      | none => rfl
      | some a => exact if_neg (idle a active)

end Sys2Proof.Machine
end

section
/-! How a read step is judged (R125, R126, R138, R162, R172), and how a job ends; the statement O59. -/

namespace Sys2Proof.Machine

/-! ## A job that has ended in success (R127) -/

section
variable {s : State} {l : Layout} {a : Active}

/-- The state in which an appended record is the latest and its job has ended, but for its end actions. -/
def State.appended (s : State) (a : Active) (r : CommitRecord) : State :=
  State.ended { s with latest := some { slot := a.data.target, record := r } } a a.doneOutcome r.ringGen

theorem State.proceed_append {r : CommitRecord} (stage : a.stage = .append) (record : a.data.record = some r) :
    s.proceed l a [] = (s.appended a r).endActions a true := by
  have ok : decide (a.doneOutcome = .done ∨ a.doneOutcome = .donePoisoned) = true := by
    rw [Active.doneOutcome]
    split <;> rfl
  simp only [State.proceed, stage, State.appendDone, record, State.endJob_eq, ok]
  rfl

theorem State.proceed_scrub (stage : a.stage = .work) (scrub : a.job.kind = .scrub) : s.proceed l a [] = s.ended a .done 0 := by
  simp only [State.proceed, stage, scrub, JobKind.appendsNone, if_true, State.endJob_eq, State.endActions]

theorem State.endActions_ok :
    (a.job.kind = .commitGrid → s.endActions a true = s.unlock) ∧
    (a.job.kind = .park → s.endActions a true = State.unlock { s with history := s.history.clear }) ∧
    (∀ k content, a.job.kind = .keyStore → a.data.key = some (k, content) →
      s.endActions a true = (s.setKey a.job.slot k).clearStaging) ∧
    (a.job.kind = .keyErase → s.endActions a true = s.setKey a.job.slot KeyEntry.empty) ∧
    (∀ h, a.job.kind = .regionSelect → a.data.header = some h → s.endActions a true = { s with region := { s.region with
      selected := some { slot := a.job.slot, id := h.id, scale := h.scale }, classes := some h.classes } }) ∧
    (a.job.kind = .closeOut → s.endActions a true = { s with session := { s.session with
      state := if s.session.state = .opened then .closed else s.session.state } }) := by
  unfold State.endActions
  refine ⟨fun kind => ?_, fun kind => ?_, fun k content kind key => ?_, fun kind => ?_, fun h kind header => ?_, fun kind => ?_⟩
  · rw [kind]
  · rw [kind]; rfl
  · rw [kind, key]; rfl
  · rw [kind]; rfl
  · rw [kind, header]
  · rw [kind]
    by_cases opened : s.session.state = .opened
    · simp only [opened, and_self, if_true]
    · simp only [opened, and_false, if_false]

/-- A failure does not look at what the job has gathered. -/
theorem State.failJob_congr {b : Active} (same : b.job = a.job) (sector : Nat) : s.failJob b sector = s.failJob a sector := by
  rw [State.failJob, State.failJob, State.endJob_eq, State.endJob_eq]
  unfold State.endActions State.ended
  rw [same]
  cases a.job.kind <;> rfl

/-! ## The verify (R126) -/

theorem SectorWrite.passes_iff {w : SectorWrite} {bytes aside : List Byte} :
    w.passes l bytes aside = true ↔ bytes = w.bytes ∧ w.decodes l bytes aside = w.expects := by
  rw [SectorWrite.passes, Bool.and_eq_true, decide_eq_true_eq, decide_eq_true_eq]

theorem State.noRepeat_iff {w : SectorWrite} : (w.second || s.repeatForbidden a w) = true ↔ w.second = true ∨
    (a.job.kind = .keyStore ∧ a.stage = .work ∧ w.erased = false ∧ s.closedFlag = true) := by
  simp only [State.repeatForbidden, Bool.or_eq_true, Bool.and_eq_true, decide_eq_true_eq, Bool.not_eq_true', and_assoc]

theorem allBlank_iff {bytes : List Byte} : allBlank bytes = true ↔ ∀ b ∈ bytes, b = 0xFF := by
  simp only [allBlank, List.all_eq_true, beq_iff_eq]
  rfl

theorem zipIdx_map_range {α β : Type} (n : Nat) (f : Nat → α) (g : α × Nat → β) :
    (((List.range n).map f).zipIdx).map g = (List.range n).map fun i => g (f i, i) := by
  refine List.ext_getElem (by simp only [List.length_map, List.length_zipIdx]) fun i _ _ => ?_
  simp only [List.getElem_map, List.getElem_zipIdx, List.getElem_range, Nat.zero_add]

theorem SectorWrite.decodes_eq (l : Layout) (w : SectorWrite) (bytes aside : List Byte) : w.decodes l bytes aside =
    match w.form with
    | .embedded => (List.range (bytes.length / 64)).map (fun i =>
      decodeBlock ((bytes.drop (64 * i)).take 60) ((bytes.drop (64 * i + 60)).take 4))
    | .panel => (List.range (bytes.length / 64)).map (fun i =>
      decodeBlock ((bytes.drop (64 * i)).take 64) ((aside.drop (4 * ((w.addr - l.panel) / 64 + i))).take 4))
    | .checkTable => (List.range w.expects.length).map (fun i =>
      decodeBlock ((aside.drop (64 * i)).take 64) ((bytes.drop (4 * i)).take 4)) := by
  unfold SectorWrite.decodes
  cases w.form with
  | embedded =>
    dsimp only
    rw [blocksOf, List.map_map]
    refine List.map_congr_left fun i _ => ?_
    show decodeBlock (slice (slice bytes (64 * i) 64) 0 60) (slice (slice bytes (64 * i) 64) 60 4) = _
    rw [slice_slice _ (by decide), slice_slice _ (by decide)]
    rfl
  | panel => exact zipIdx_map_range _ _ _
  | checkTable => rfl

theorem SectorWrite.steps_eq (l : Layout) (w : SectorWrite) : w.steps l = (if w.erased = true then [.erase w.sector] else []) ++
    pageSteps w.addr w.bytes ++ w.verifySteps l := (List.append_assoc _ _ _).symm

/-- A run of bytes of one page is programmed in one step, of two pages in two. -/
theorem pageSteps_one {addr : Nat} {bytes : List Byte} (some : 1 ≤ bytes.length) (page : bytes.length ≤ 256) :
    pageSteps addr bytes = [.program addr bytes] := by
  have one : ceilDiv bytes.length 256 = 1 := by unfold ceilDiv; omega
  rw [pageSteps, one, List.range_one, List.map_singleton, slice, List.drop_zero, List.take_of_length_le page]
  rfl

theorem pageSteps_two {addr : Nat} {bytes : List Byte} (two : bytes.length = 512) :
    pageSteps addr bytes = [.program addr (bytes.take 256), .program (addr + 256) (bytes.drop 256)] := by
  have count : ceilDiv bytes.length 256 = 2 := by unfold ceilDiv; omega
  have rest : (bytes.drop 256).take 256 = bytes.drop 256 := List.take_of_length_le (by rw [List.length_drop]; omega)
  rw [pageSteps, count]
  show [Step.program addr (bytes.take 256), Step.program (addr + 256) ((bytes.drop 256).take 256)] = _
  rw [rest]

theorem embeddedWrite_body {sector addr : Nat} {erased : Bool} {bytes : List Byte} (some : bytes ≠ []) :
    (embeddedWrite sector erased addr bytes).body l = pageSteps addr bytes ++
      [.read addr bytes.length (.verify (embeddedWrite sector erased addr bytes))] := by
  rw [SectorWrite.body, SectorWrite.verifySteps_embedded rfl some]
  rfl

end

/-! ## The statement O59 -/

theorem State.exec_reading {s : State} {l : Layout} {a : Active} {x n : Nat} {use : Use} {rest : List Step} (busy : Bool)
    (mis : List Host.Cell) (layout : s.layout = some l) (active : s.seq.active = some a) (reading : a.phase = .reading)
    (todo : a.todo = .read x n use :: rest) : exec (.readStepComplete busy mis) s =
      .next (State.settle (s.useBytes l a use (Memory.read (Memory.setAll s.flash.cells mis) x n) rest).startDue) := by
  refine congrArg (fun x : State => Host.Outcome.next x.settle) ?_
  simp only [State.withLayout, layout, active, State.readDone, reading, todo]
  rfl

/-- Settles O59: each read's bytes are put to their use, and what follows is the next step, the append or the job's end. -/
theorem readStepsJudgeWhatTheyRead : Obligations.ReadStepsJudgeWhatTheyRead := by
  have next : ∀ {x y : State}, x = y → Host.Outcome.next x.settle = (Host.Outcome.next y.settle : Host.Outcome State Fault Refusal) :=
    fun h => congrArg (fun x : State => Host.Outcome.next x.settle) h
  refine ⟨fun s l a busy mis layout active polling => ?polls, fun s l a x n use rest busy mis layout active reading todo => ?reads,
    fun l w bytes aside => ⟨?steps, w.decodes_eq l bytes aside⟩⟩
  case polls =>
    refine next ?_
    simp only [State.withLayout, layout, active, State.readDone, polling, Bool.and_eq_true, Option.isSome_iff_ne_none]
  case steps =>
    rw [w.steps_eq, SectorWrite.verifySteps]
    simp only [List.isEmpty_iff]
    rfl
  case reads =>
    intro bytes does goesOn ended unlocked damaged next' probes aimed fails
    have step : ∀ {t : State}, (s.useBytes l a use bytes rest).startDue = t → does t := fun e =>
      (State.exec_reading busy mis layout active reading todo).trans (next e)
    have on : ∀ {u : State} {b : Active} {more : List Step}, more ≠ [] → s.useBytes l a use bytes rest = u.proceed l b more →
        goesOn u b more := fun some used => step (by rw [used, State.proceed_next some, State.startDue_withActive])
    have appends : ∀ {u : State} {b : Active}, (∀ y, u.latest = some y → y.record.ringGen < 4294967295) → u.latest = s.latest →
        s.useBytes l a use bytes rest = u.startAppend l b → goesOn u (aimed b next') (probes next') := fun left same used =>
      step (by rw [used, State.startAppend_probes left, same]; exact State.startDue_withActive _ _)
    have failing : ∀ {u : State} {b : Active} {sector : Nat}, b.job = a.job → s.useBytes l a use bytes rest = u.failJob b sector →
        fails u sector := fun {u b sector} same used => by
      have failed : s.useBytes l a use bytes rest = u.failJob a sector := by
        rw [used, State.failJob_congr same]
      have ends : ∀ {t : State}, u.failJob a sector = t → does t.startDue := fun e => step (by rw [failed, e])
      exact ⟨fun kind => ends (State.failJob_grid sector kind), fun kind => ends (State.failJob_keyStore sector kind),
        fun kind => ends (State.failJob_keyErase sector kind), fun kind => ends (State.failJob_plain sector kind)⟩
    refine ⟨fun u more => ?load, fun more u some => ?aside, fun w u => ?verify, fun u r record => ?target,
      fun u store k content key length => ?slot, fun u region => ?header⟩
    case load => exact on more (by rw [u]; rfl)
    case aside =>
      have used : s.useBytes l a use bytes rest = s.proceed l (a.keepAside more bytes) rest := by rw [u]; rfl
      refine step ?_
      rw [used, State.proceed_next some, State.startDue_withActive]
      cases more <;> rfl
    case verify =>
      intro passes once
      have judged : s.useBytes l a use bytes rest = s.judgeVerify l a w bytes rest := by rw [u]; rfl
      have passed : passes → s.judgeVerify l a w bytes rest = s.proceed l a rest := fun h => if_pos (SectorWrite.passes_iff.2 h)
      have missed : ¬passes → s.judgeVerify l a w bytes rest = if w.second || s.repeatForbidden a w then s.failJob a w.sector
          else if w.erased then s.proceed l a (({ w with second := true }).steps l ++ rest)
          else s.beginRewrite l a { sector := w.sector, splice := some (w.addr, w.bytes), scrub := false, second := true } rest :=
        fun h => if_neg fun p => h (SectorWrite.passes_iff.1 p)
      refine ⟨fun h more => on more (judged.trans (passed h)), fun h last work scan scrub left => ?_,
        fun h last work scan scrub y latest full => ?_, fun h last work scrub => ?_, fun h last append r record => ?_,
        fun h o => ?_, fun h o erased => ?_, fun h o erased => ?_⟩
      · refine appends left rfl ?_
        rw [judged, passed h, last, State.proceed_work work (JobKind.appendsNone_eq scan scrub)]
      · refine failing rfl ?_
        rw [judged, passed h, last, State.proceed_work work (JobKind.appendsNone_eq scan scrub),
          State.startAppend_exhausted latest full]
      · refine step ?_
        rw [judged, passed h, last, State.proceed_scrub work scrub]
        rfl
      · intro e
        have finished : s.useBytes l a use bytes rest = (s.appended a r).endActions a true := by
          rw [judged, passed h, last, State.proceed_append append record]
        have after : ∀ {t : State}, (s.appended a r).endActions a true = t → does t.startDue := fun e => step (by rw [finished, e])
        obtain ⟨commit, park, store, erase, region, close⟩ := (s.appended a r).endActions_ok (a := a)
        exact ⟨fun kind => after (commit kind), fun kind => after (park kind), fun k content kind key => after (store k content kind key),
          fun kind => after (erase kind), fun h kind header => after (region h kind header), fun kind => after (close kind)⟩
      · refine failing rfl ?_
        rw [judged, missed h, if_pos (State.noRepeat_iff.2 o)]
      · refine on (by simp [SectorWrite.steps, erased]) ?_
        rw [judged, missed h, if_neg (fun p => o (State.noRepeat_iff.1 p)), if_pos erased]
      · refine step ?_
        rw [judged, missed h, if_neg (fun p => o (State.noRepeat_iff.1 p)), if_neg (by rw [erased]; nofun)]
        exact State.startDue_withActive _ _
    case target =>
      intro at' past
      have judged : s.useBytes l a use bytes rest = s.judgeTarget l a bytes := by rw [u]; rfl
      refine ⟨fun blank => ?_, fun written => step ?_⟩
      · have long : (embedBlock r.data).length = 64 := embedBlock_whole _
        have some : embedBlock r.data ≠ [] := fun e => absurd (congrArg List.length e) (by rw [long]; nofun)
        refine on (List.cons_ne_nil _ _) ?_
        rw [judged, State.judgeTarget, if_pos (allBlank_iff.2 blank), record]
        dsimp only [Option.getD_some]
        rw [embeddedWrite_body some, pageSteps_one (by omega) (by omega), embeddedWrite, long]
        rfl
      · rw [judged, State.judgeTarget, if_neg (fun h => written (allBlank_iff.1 h))]
        exact State.startDue_withActive _ _
    case slot =>
      intro at' sector
      have judged : s.useBytes l a use bytes rest = s.judgeSlotRead l a bytes := by rw [u]; rfl
      have written : ¬(∀ b ∈ bytes, b = 0xFF) → s.judgeSlotRead l a bytes = if s.closedFlag then s.failJob a sector
          else s.beginRewrite l a { sector := sector, splice := some (at', content), scrub := false, second := false } [] := fun h => by
        rw [State.judgeSlotRead, if_neg (fun p => h (allBlank_iff.1 p)), key]
        rfl
      refine ⟨fun blank => ?_, fun h opened => step ?_, fun h closed => failing rfl ?_⟩
      · have some : content ≠ [] := fun e => absurd (congrArg List.length e) (by rw [length]; nofun)
        refine on (List.cons_ne_nil _ _) ?_
        rw [judged, State.judgeSlotRead, if_pos (allBlank_iff.2 blank), key]
        show s.proceed l a ((embeddedWrite sector false at' content).body l) = _
        rw [embeddedWrite_body some, pageSteps_two length, embeddedWrite, length]
        rfl
      · rw [judged, written h, if_neg (by rw [opened]; nofun)]
        refine (State.startDue_withActive _ _).trans ?_
        rw [List.append_nil]
      · rw [judged, written h, if_pos closed]
    case header =>
      intro known invalid
      have judged : s.useBytes l a use bytes rest = s.judgeHeader l a bytes := by rw [u]; rfl
      have refused : ∀ {v : State} {n : Nat}, s.useBytes l a use bytes rest = v.refuseProfile a n → invalid v n := fun e =>
        step (by rw [e, State.refuseProfile, State.endJob_eq]; unfold State.endActions; rw [region]; rfl)
      have read : ∀ {h : ProfileHeader}, profileHeader bytes = some h → s.useBytes l a use bytes rest =
          if s.session.publishSeen && decide (h.scale ≠ s.scale) then (known (some h)).refuseProfile a 2
          else (known (some h)).startAppend l { a with data := { a.data with header := some h } } := fun found => by
        rw [judged, State.judgeHeader, found]
        rfl
      have taken : ∀ {h : ProfileHeader}, profileHeader bytes = some h → s.session.publishSeen = false ∨ h.scale = s.scale →
          s.useBytes l a use bytes rest = (known (some h)).startAppend l { a with data := { a.data with header := some h } } :=
        fun found fits => (read found).trans (if_neg (by
          rw [Bool.and_eq_true, decide_eq_true_eq]
          rintro ⟨seen, other⟩
          rcases fits with unseen | same
          · rw [unseen] at seen; cases seen
          · exact other same))
      refine ⟨fun none => refused ?_, fun h found seen other => refused ?_, fun h found fits left => ?_,
        fun h found fits y latest full => ?_⟩
      · rw [judged, State.judgeHeader, none]
        rfl
      · rw [read found, seen, decide_eq_true other]
        rfl
      · exact appends left rfl (taken found fits)
      · exact failing rfl ((taken found fits).trans (State.startAppend_exhausted (s := known (some h)) latest full))

end Sys2Proof.Machine
end

section
/-! What SCAN and a rewrite make of the blocks they read: the tally (R121), the findings and their reports (R131), the key
slots (R156), the planned sector (R129); the statement O60. -/

namespace Sys2Proof.Machine

/-! ## The tally (R121) -/

theorem satSucc_eq (n : Nat) : satSucc 255 n = if n < 255 then n + 1 else n := rfl

/-- A correction in a sector that is listed adds one to its entry. -/
theorem tallyCorrection_listed {pre post : List TallyEntry} {y : TallyEntry} {x : Nat} (here : y.sector = x)
    (first : ∀ z ∈ pre, z.sector ≠ x) :
    let n := if y.count < 255 then y.count + 1 else y.count
    tallyCorrection (pre ++ y :: post) x =
      (pre ++ { sector := x, count := n, reported := y.reported || decide (3 ≤ n) } :: post, decide (3 ≤ n) && !y.reported) := by
  intro n
  have found : (pre ++ y :: post).findIdx? (fun e => e.sector == x) = some pre.length := by
    have none : pre.findIdx? (fun e => e.sector == x) = none := List.findIdx?_eq_none_iff.2 fun z hz => by simpa using first z hz
    rw [List.findIdx?_append, none, Option.none_or, List.findIdx?_cons, if_pos (by simpa using here)]
    simp
  have entry : ∀ d, (pre ++ y :: post).getD pre.length d = y := fun d => by
    simp only [List.getD_eq_getElem?_getD, List.getElem?_append_right (Nat.le_refl _), Nat.sub_self, List.getElem?_cons_zero,
      Option.getD_some]
  simp only [tallyCorrection, found, entry, satSucc_eq]
  rw [List.set_append_right _ _ (Nat.le_refl _), Nat.sub_self, ← here]
  cases y.reported <;> simp [n]

/-- The entry a full tally gives up: the lowest count, the oldest among equals. -/
theorem tallyVictim_eq {pre post : List TallyEntry} {y : TallyEntry} (above : ∀ z ∈ pre, y.count < z.count)
    (least : ∀ z ∈ post, y.count ≤ z.count) : tallyVictim (pre ++ y :: post) = some pre.length := by
  induction pre with
  | nil =>
    have low : ∀ j, y.count ≤ (post.getD j y).count := fun j => by
      rw [List.getD_eq_getElem?_getD]
      cases hj : post[j]? with
      | none => exact Nat.le_refl _
      | some z => exact least z (List.mem_of_getElem? hj)
    rw [List.nil_append, tallyVictim]
    cases tallyVictim post with
    | none => rfl
    | some j => exact if_pos (low j)
  | cons z t ih =>
    have victim := ih fun w hw => above w (List.mem_cons_of_mem _ hw)
    have entry : (t ++ y :: post).getD t.length z = y := by
      simp only [List.getD_eq_getElem?_getD, List.getElem?_append_right (Nat.le_refl _), Nat.sub_self, List.getElem?_cons_zero,
        Option.getD_some]
    rw [List.cons_append, tallyVictim, victim]
    dsimp only
    rw [entry, if_neg (Nat.not_le.2 (above z List.mem_cons_self))]
    rfl

section
variable {tally : List TallyEntry} {x : Nat}

theorem findIdx?_unlisted (unlisted : ∀ z ∈ tally, z.sector ≠ x) : tally.findIdx? (fun e => e.sector == x) = none :=
  List.findIdx?_eq_none_iff.2 fun z hz => by simpa using unlisted z hz

theorem tallyCorrection_new (unlisted : ∀ z ∈ tally, z.sector ≠ x) (room : tally.length < 16) :
    (tallyCorrection tally x).1 = tally ++ [{ sector := x, count := 1, reported := false }] := by
  rw [tallyCorrection, findIdx?_unlisted unlisted]
  dsimp only
  rw [if_pos room]

theorem tallyCorrection_full {pre post : List TallyEntry} {y : TallyEntry} (unlisted : ∀ z ∈ tally, z.sector ≠ x)
    (split : tally = pre ++ y :: post) (full : 16 ≤ tally.length) (above : ∀ z ∈ pre, y.count < z.count)
    (least : ∀ z ∈ post, y.count ≤ z.count) :
    (tallyCorrection tally x).1 = pre ++ post ++ [{ sector := x, count := 1, reported := false }] := by
  rw [tallyCorrection, findIdx?_unlisted unlisted]
  dsimp only
  rw [if_neg (Nat.not_lt.2 full), split, tallyVictim_eq above least]
  dsimp only
  rw [List.eraseIdx_append_of_length_le (Nat.le_refl _), Nat.sub_self]
  rfl

theorem tallyCorrection_due (unlisted : ∀ z ∈ tally, z.sector ≠ x) : (tallyCorrection tally x).2 = false := by
  rw [tallyCorrection, findIdx?_unlisted unlisted]

end

theorem State.tallyAll_eq (xs : List Nat) (s : State) : s.tallyAll xs =
    { s with seq := { s.seq with tally := (s.tallyAll xs).seq.tally }, conds := (s.tallyAll xs).conds } := by
  induction xs generalizing s with
  | nil => rfl
  | cons x t ih =>
    rw [State.tallyAll]
    dsimp only
    rw [ih]
    split
    · rw [State.raise_eq]
    · rfl

/-! ## Findings (R131) -/

theorem any_decide_eq (ds : List Decode) (d : Decode) : (ds.any fun x => decide (x = d)) = decide (d ∈ ds) := by
  rw [Bool.eq_iff_iff, List.any_eq_true, decide_eq_true_eq]
  exact ⟨fun ⟨x, mem, same⟩ => of_decide_eq_true same ▸ mem, fun mem => ⟨d, mem, decide_eq_true rfl⟩⟩

theorem Findings.add_eq (f : Findings) (ds : List Decode) (blank : Bool) : f.add ds blank =
    { corrected := f.corrected || ds.any Decode.corrected, uncorrectable := f.uncorrectable || decide (.uncorrectable ∈ ds)
      poisoned := f.poisoned || decide (.poisoned ∈ ds), blank := f.blank || blank } := by
  rw [Findings.add, any_decide_eq, any_decide_eq]

/-- A SCRUB is queued in COMMISSIONING mode where none for the sector waits and fewer than four jobs do. -/
theorem State.queueScrub_eq (s : State) (sector : Nat) : s.queueScrub sector =
    if s.mode = .commissioning ∧ (∀ j ∈ s.seq.waiting, ¬(j.kind = .scrub ∧ j.sector = sector)) ∧ s.seq.waiting.length < 4
    then { s with seq := { s.seq with waiting := s.seq.waiting ++ [{ kind := .scrub, tag := 0, slot := 0, sector := sector }] } }
    else s := by
  rw [State.queueScrub]
  refine if_congr (and_congr_right fun _ => and_congr ?_ ?_) rfl rfl
  · simp only [State.scrubWaits, List.any_eq_false, Bool.and_eq_true, decide_eq_true_eq]
  · rw [State.queueFull, decide_eq_false_iff_not, Nat.not_le]

/-- SCAN goes on to its next step, or ends DONE. -/
theorem State.proceed_scan {s : State} {l : Layout} {a : Active} {rest : List Step} (kind : a.job.kind = .scan)
    (stage : a.stage = .work) : (s.proceed l a rest).startDue =
      if rest = [] then (s.ended a .done 0).startDue else s.withActive { a with todo := rest, phase := .waiting } := by
  by_cases last : rest = []
  · rw [if_pos last, last]
    simp only [State.proceed, stage, kind, JobKind.appendsNone, if_true, State.endJob_eq, State.endActions]
  · rw [if_neg last, State.proceed_next last, State.startDue_withActive]

/-! ## The key slots (R156) -/

theorem State.classTaken_iff {s : State} {slot cls : Nat} : s.classTaken slot cls = true ↔
    ∃ j < s.keys.length, j ≠ slot ∧ (s.keyEntry j).holds cls = true := by
  constructor
  · intro taken
    simp only [State.classTaken, List.any_eq_true, Bool.and_eq_true, decide_eq_true_eq] at taken
    obtain ⟨⟨e, j⟩, mem, other, holds⟩ := taken
    rw [List.mem_zipIdx_iff_getElem?] at mem
    obtain ⟨inside, at'⟩ := List.getElem?_eq_some_iff.mp mem
    exact ⟨j, inside, other, by rw [State.keyEntry, List.getD_eq_getElem _ _ inside, at']; exact holds⟩
  · rintro ⟨j, inside, other, holds⟩
    refine Bool.of_not_eq_false fun free => ?_
    rw [State.classTaken_eq_false free inside other] at holds
    cases holds

/-- What SCAN makes of a key slot that is not PENDING, by its blocks' decodes. -/
theorem State.judgeKey_spec (s : State) (k : Nat) (blocks : List (List Byte)) :
    let ds := blocks.map decodeEmbedded
    let damaged := fun (e : KeyEntry) => (s.setKey k { e with state := .damaged }).raise { cls := .keyDamage, slot := some k }
    ((s.keyEntry k).state = .pending → s.judgeKey k blocks = s) ∧
    ((s.keyEntry k).state ≠ .pending →
      ((∀ d ∈ ds, d = .blank) → s.judgeKey k blocks = s.setKey k KeyEntry.empty) ∧
      (¬(∀ d ∈ ds, d = .blank) →
        let header := keyHeader k (decodeEmbedded (blocks.getD 0 [])) (embeddedData (blocks.getD 0 []))
        (¬(∀ d ∈ ds, d.trusted = true) ∨ header = none → s.judgeKey k blocks = damaged KeyEntry.empty) ∧
        ∀ e, (∀ d ∈ ds, d.trusted = true) → header = some e →
          s.judgeKey k blocks = (if ∃ j < s.keys.length, j ≠ k ∧ (s.keyEntry j).holds e.cls = true then damaged e
            else s.setKey k e))) := by
  intro ds damaged
  have blankIff : (ds.all fun d => decide (d = .blank)) = true ↔ ∀ d ∈ ds, d = .blank := by
    simp only [List.all_eq_true, decide_eq_true_eq]
  have trustIff : ds.all Decode.trusted = true ↔ ∀ d ∈ ds, d.trusted = true := List.all_eq_true
  refine ⟨fun pending => if_pos pending, fun free => ⟨fun blank => (if_neg free).trans (if_pos (blankIff.2 blank)), fun written => ?_⟩⟩
  intro header
  have judged : s.judgeKey k blocks = match (if ds.all Decode.trusted = true then header else none) with
      | none => s.damageKey k KeyEntry.empty
      | some e => if s.classTaken k e.cls then s.damageKey k e else s.setKey k e :=
    (if_neg free).trans (if_neg fun h => written (blankIff.1 h))
  refine ⟨fun bad => ?_, fun e trusted found => ?_⟩
  · have none : (if ds.all Decode.trusted = true then header else none) = none := by
      rcases bad with untrusted | none
      · exact if_neg fun h => untrusted (trustIff.1 h)
      · rw [none, ite_self]
    rw [judged, none]
    rfl
  · rw [judged, if_pos (trustIff.2 trusted), found]
    exact if_congr State.classTaken_iff rfl rfl

/-! ## The planned sector (R126, R129) -/

theorem mem_blocksOf {b bytes : List Byte} (mem : b ∈ blocksOf bytes) : b.length = 64 := by
  rw [blocksOf, List.mem_map] at mem
  obtain ⟨i, hi, rfl⟩ := mem
  rw [List.mem_range] at hi
  exact slice_length (by omega)

/-- The blocks a rewrite finds, by the sector's form. -/
theorem foundBlocks_eq {l : Layout} {sector : Nat} {form : BlockForm} (blocks : Nat) (buffer aside : List Byte) :
    l.formOf sector = form → foundBlocks l blocks sector buffer aside =
    match form with
    | .embedded => (blocksOf buffer).map (fun b =>
      let d := decodeEmbedded b
      { bytes := repairData (b.take 60) d ++ (if d = .checkOnly then checkOf (b.take 60) else b.drop 60), decode := d })
    | .panel => (blocksOf buffer).zipIdx.map (fun p =>
      let d := decodeBlock p.1 (slice aside (4 * ((sector - l.panel) / 64 + p.2)) 4)
      { bytes := repairData p.1 d, decode := d })
    | .checkTable => (List.range blocks).map (fun i =>
      let d := decodeBlock (slice aside (64 * i) 64) (slice buffer (4 * i) 4)
      { bytes := if d = .checkOnly then checkOf (slice aside (64 * i) 64) else slice buffer (4 * i) 4, decode := d }) := by
  intro formed
  rw [foundBlocks, formed]
  cases form with
  | embedded =>
    refine List.map_congr_left fun b mem => ?_
    have tail : slice b 60 4 = b.drop 60 := List.take_of_length_le (by rw [List.length_drop, mem_blocksOf mem])
    rw [foundEmbedded, tail]
    rfl
  | panel => rfl
  | checkTable => rfl

theorem Decode.carried_eq (d : Decode) : d.carried = match d with
    | .blank => Decode.blank
    | .poisoned => .poisoned
    | .uncorrectable => .uncorrectable
    | _ => .good := by
  cases d <;> rfl

theorem spliceExpects_eq (bytes : List Byte) : spliceExpects bytes =
    (blocksOf bytes).map fun b => if ∀ x ∈ b, x = 0xFF then .blank else .good := by
  refine List.map_congr_left fun b _ => if_congr ?_ rfl rfl
  exact allBlank_iff

theorem Layout.formOf_eq (l : Layout) (sector : Nat) : l.formOf sector =
    if l.panel ≤ sector ∧ sector < l.panel + 28672 then .panel else if sector = l.panelCheck then .checkTable else .embedded := by
  by_cases inside : l.panel ≤ sector ∧ sector < l.panel + 28672
  · rw [if_pos inside, Layout.formOf_panel inside]
  · rw [if_neg inside, Layout.formOf_other inside]

/-- Settles O60: SCAN's reads by the sector they read, and a rewrite's plan from the blocks it found. -/
theorem scansReportWhatTheyFind : Obligations.ScansReportWhatTheyFind := by
  have next : ∀ {x y : State}, x = y → Host.Outcome.next x.settle = (Host.Outcome.next y.settle : Host.Outcome State Fault Refusal) :=
    fun h => congrArg (fun x : State => Host.Outcome.next x.settle) h
  refine ⟨fun s x more => ⟨rfl, (tallyCorrection s.seq.tally x).1, (tallyCorrection s.seq.tally x).2, rfl,
      fun pre y post split here first => ?listed, fun unlisted => ⟨tallyCorrection_due unlisted, tallyCorrection_new unlisted,
        fun pre y post split full above least => tallyCorrection_full unlisted split full above least⟩⟩,
    fun s l a x n use rest busy mis layout active reading todo => ?reads,
    readStepsJudgeWhatTheyRead.2.2⟩
  case listed =>
    rw [split, tallyCorrection_listed here first]
    exact ⟨rfl, rfl⟩
  case reads =>
    intro bytes blocks ended goesOn reports scrubbed
    have step : ∀ {t : State}, (s.useBytes l a use bytes rest).startDue = t → exec (.readStepComplete busy mis) s = .next t.settle :=
      fun e => (State.exec_reading busy mis layout active reading todo).trans (next e)
    have on : ∀ {u : State} {f : Findings} {check : Bool}, a.job.kind = .scan → a.stage = .work →
        s.useBytes l a use bytes rest = u.proceed l (a.withFindings f check) rest → goesOn u f check := fun scan work used =>
      step (by rw [used]; exact State.proceed_scan scan work)
    refine ⟨fun i u scan work => ?ring, fun i u scan work => ?panel, fun k u scan work => ?slot, fun toBuffer rw u => ?plan⟩
    case ring =>
      intro ds sector f
      refine on scan work ?_
      have reported : (s.tallyAll (correctionsIn sector ds)).reportSector sector (Findings.none.add ds false) false =
          (s.tallyAll (correctionsIn sector ds)).raiseAll (reports f sector) := by
        rw [Findings.add_eq]
        exact if_neg (by rw [Bool.and_false]; nofun)
      rw [u]
      exact congrArg (fun v : State => v.proceed l a rest) reported
    case panel =>
      intro ds sector own f check t v
      refine on scan work ?_
      have findings : Findings.none.add own (ds.any fun d => decide (d = .blank)) = f := by
        have kept : ∀ d : Decode, d ≠ .checkOnly → decide (d ∈ own) = decide (d ∈ ds) := fun d other =>
          decide_eq_decide.2 (by rw [List.mem_filter, decide_eq_true_eq]; exact and_iff_left other)
        rw [Findings.add_eq, any_decide_eq, kept .uncorrectable nofun, kept .poisoned nofun]
        rfl
      have first : (s.tallyAll ((ds.filter Decode.corrected).map (panelCharge l sector))).reportSector sector f true = v := by
        rw [State.reportSector, Bool.and_true]
        exact if_congr Iff.rfl (State.queueScrub_eq _ _) rfl
      have last : v.reportSector l.panelCheck { Findings.none with corrected := true } true =
          scrubbed (v.raise { cls := .storeCorrected, address := some l.panelCheck }) l.panelCheck := State.queueScrub_eq _ _
      have checked : (a.data.checkFound || ds.any fun d => decide (d = .checkOnly)) = check := by rw [any_decide_eq]
      rw [u]
      show State.proceed (if rest.isEmpty && (a.data.checkFound || ds.any fun d => decide (d = .checkOnly)) then
          ((s.tallyAll ((ds.filter Decode.corrected).map (panelCharge l sector))).reportSector sector
            (Findings.none.add own (ds.any fun d => decide (d = .blank))) true).reportSector l.panelCheck
              { Findings.none with corrected := true } true
        else (s.tallyAll ((ds.filter Decode.corrected).map (panelCharge l sector))).reportSector sector
          (Findings.none.add own (ds.any fun d => decide (d = .blank))) true) l
        (a.withFindings Findings.none (a.data.checkFound || ds.any fun d => decide (d = .checkOnly))) rest = _
      rw [findings, checked, first, last]
      refine congrArg (fun v : State => v.proceed l (a.withFindings Findings.none check) rest) (if_congr ?_ rfl rfl)
      rw [Bool.and_eq_true, List.isEmpty_iff]
    case slot =>
      intro ds sector f t set damaged
      obtain ⟨pending, judged⟩ := t.judgeKey_spec k blocks
      have keys : t.keys = s.keys := by rw [show t = s.tallyAll _ from rfl, State.tallyAll_eq]
      have entry : ∀ j, t.keyEntry j = s.keyEntry j := fun j => by rw [State.keyEntry, keys]; rfl
      have sets : ∀ e, t.setKey k e = set e := fun e => by rw [State.setKey, keys]
      simp only [entry, sets, keys] at pending judged
      have findings : a.data.found.add ds ((ds.any fun d => decide (d = .blank)) && !ds.all fun d => decide (d = .blank)) = f := by
        have written : (!ds.all fun d => decide (d = .blank)) = decide (∃ d ∈ ds, d ≠ .blank) := by
          rw [Bool.eq_iff_iff, Bool.not_eq_true', ← Bool.not_eq_true, List.all_eq_true, decide_eq_true_eq]
          simp only [decide_eq_true_eq, not_forall, exists_prop]
        rw [Findings.add_eq, written, any_decide_eq]
      have read : s.useBytes l a use bytes rest = if k % 8 = 7 then
          ((t.judgeKey k blocks).reportSector sector f (!s.closedFlag)).proceed l (a.withFindings Findings.none a.data.checkFound) rest
        else (t.judgeKey k blocks).proceed l (a.withFindings f a.data.checkFound) rest := by
        rw [u, ← findings]
        rfl
      refine ⟨t.judgeKey k blocks, pending, judged, fun inside => on scan work (read.trans (if_neg inside)), fun last => ?_⟩
      intro w
      have reported : (t.judgeKey k blocks).reportSector sector f (!s.closedFlag) =
          if f.corrected = true ∧ s.closedFlag = false then scrubbed w sector else w := by
        rw [State.reportSector]
        refine if_congr ?_ (State.queueScrub_eq _ _) rfl
        rw [Bool.and_eq_true, Bool.not_eq_true']
      exact on scan work ((read.trans (if_pos last)).trans (by rw [reported]))
    case plan =>
      intro buffer aside form found repaired carried whole expects w
      have planned : s.useBytes l a use bytes rest = State.planRewrite { s with seq := { s.seq with buffer := buffer } } l
          { a with data := { a.data with aside := aside } } rw rest := by
        rw [u]
        cases toBuffer <;> rfl
      have blocksFound : foundBlocks l s.uniformityBlocks rw.sector buffer aside = found := by
        exact foundBlocks_eq _ _ _ (l.formOf_eq rw.sector)
      have corrects : rw.corrects l s.uniformityBlocks buffer aside = true ↔ ∃ f ∈ found, f.decode.corrected = true := by
        rw [Rewrite.corrects, blocksFound, List.any_eq_true]
      have write : rw.write l s.uniformityBlocks buffer aside = w := by
        have carry : (found.map fun f => f.decode.carried) = carried := List.map_congr_left fun f _ => f.decode.carried_eq
        rw [Rewrite.write, blocksFound, l.formOf_eq]
        simp only [carry, spliceExpects_eq]
        rfl
      refine ⟨fun scrub kind clean => step ?_, fun writes => step ?_⟩
      · have nothing : rw.corrects l s.uniformityBlocks buffer aside = false := Bool.eq_false_iff.2 fun h => by
          obtain ⟨f, mem, corrected⟩ := corrects.1 h
          rw [clean f mem] at corrected
          cases corrected
        have endsHere : State.planRewrite { s with seq := { s.seq with buffer := buffer } } l
            { a with data := { a.data with aside := aside } } rw rest =
            State.endJob { s with seq := { s.seq with buffer := buffer } } { a with data := { a.data with aside := aside } } .done 0 :=
          if_pos (by rw [scrub]; exact congrArg (!·) nothing)
        rw [planned, endsHere, State.endJob_eq]
        unfold State.endActions
        rw [kind]
        rfl
      · have goes : State.planRewrite { s with seq := { s.seq with buffer := buffer } } l
            { a with data := { a.data with aside := aside } } rw rest =
            State.proceed { s with seq := { s.seq with buffer := w.bytes } } l { a with data := { a.data with aside := aside } }
              (w.steps l ++ rest) := by
          rw [← write]
          refine if_neg fun h => ?_
          obtain ⟨scrub, clean⟩ := (Bool.and_eq_true _ _).mp h
          rcases writes with no | some
          · exact absurd (scrub.symm.trans no) nofun
          · exact absurd ((corrects.2 some).symm.trans ((Bool.not_eq_true' _).mp clean)) nofun
        have more : w.steps l ++ rest ≠ [] := List.append_ne_nil_of_left_ne_nil (List.cons_ne_nil _ _) rest
        rw [planned, goes, State.proceed_next more, State.startDue_withActive]

end Sys2Proof.Machine
end

section
/-! A park image read back (R144, R148, R149). -/

namespace Sys2Proof.Machine

/-! ## The blocks of an image in flash -/

theorem trustedData_embedBlock (data : List Byte) : trustedData (embedBlock data) = some (padTo 60 0 data) := by
  have sixty : (padTo 60 0 data).length = 60 := padTo_length _ _ _
  have whole : embedBlock data = embedBlock (padTo 60 0 data) := (embedBlock_eq sixty).symm
  rw [whole, trustedData, decodeEmbedded_embedBlock sixty, embeddedData_embedBlock sixty]
  rfl

/-- A block of an area whose bytes are known. -/
theorem areaBlock_of_read {m : Memory} {base i : Nat} {img : List Byte} (read : Memory.read m base img.length = img)
    (inside : 64 * i + 64 ≤ img.length) : areaBlock m base i = slice img (64 * i) 64 := by
  rw [← read, Memory.read, slice_map_range _ inside, areaBlock, Memory.read]
  exact List.map_congr_left fun o _ => by rw [Nat.add_assoc]

theorem Grid.trusted_parkBlock {g : Grid} {gen scale i : Nat} {m : Memory} {base : Nat} {data : List Byte}
    (read : Memory.read m base (g.parkImage gen scale).length = g.parkImage gen scale)
    (block : (g.parkBlocks gen scale)[i]? = some data) : trustedData (areaBlock m base i) = some (padTo 60 0 data) := by
  have inside : i < (g.parkBlocks gen scale).length := (List.getElem?_eq_some_iff.mp block).1
  have length : (g.parkImage gen scale).length = 64 * (g.parkBlocks gen scale).length := length_flatten_map embedBlock_whole _
  have here := slice_flatten embedBlock_whole [] block
  rw [List.append_nil] at here
  rw [areaBlock_of_read read (by omega), ← trustedData_embedBlock]
  exact congrArg trustedData here

theorem chunks60_getElem? {bytes : List Byte} {i : Nat} (inside : i < ceilDiv bytes.length 60) :
    (chunks60 bytes)[i]? = some (slice bytes (60 * i) 60) := by
  rw [chunks60, List.getElem?_map, List.getElem?_range inside]
  rfl

theorem getD_padTo {α : Type} (d fill : α) {l : List α} {n i : Nat} (inside : i < l.length) (fits : i < n) :
    (padTo n fill l).getD i d = l.getD i d := by
  simp only [padTo, List.getD_eq_getElem?_getD]
  rw [List.getElem?_append_left (by rw [List.length_take]; omega), List.getElem?_take_of_lt fits]

/-- A byte of a chunk is the run's byte at its place. -/
theorem getD_chunk {bytes : List Byte} {k : Nat} (inside : k < bytes.length) :
    (padTo 60 0 (slice bytes (60 * (k / 60)) 60)).getD (k % 60) 0 = bytes.getD k 0 := by
  have fits : k % 60 < 60 := Nat.mod_lt _ (by decide)
  rw [getD_padTo 0 0 (by simp only [slice, List.length_take, List.length_drop]; omega) fits, getD_slice _ _ fits, Nat.div_add_mod]

/-! ## Codes and marks -/

theorem signedByte_byteOfInt {c : Int} (inRange : codeInRange c) : signedByte (byteOfInt c) = c := by
  obtain ⟨low, high⟩ := inRange
  rw [signedByte, byteOfInt, BitVec.toInt_ofInt]
  exact Int.bmod_eq_of_le (by omega) (by omega)

theorem packMarks_length (marks : List Bool) : (packMarks marks).length = ceilDiv marks.length 8 := by
  rw [packMarks, List.length_map, List.length_range]

/-- The mark of zone-plane `k` in the packed marks. -/
theorem packMarks_bit {marks : List Bool} {k : Nat} (inside : k < marks.length) :
    (byteAt (packMarks marks) (k / 8)).testBit (k % 8) = marks.getD k false := by
  have here : k / 8 < ceilDiv marks.length 8 := by unfold ceilDiv; omega
  have byte : (packMarks marks).getD (k / 8) 0 = bitsByte (slice marks (8 * (k / 8)) 8) := by
    rw [packMarks, List.getD_eq_getElem?_getD, List.getElem?_map, List.getElem?_range here]
    rfl
  have fits : k % 8 < 8 := Nat.mod_lt _ (by decide)
  have bit := bitsByte_getLsbD (slice marks (8 * (k / 8)) 8) fits
  rw [getD_slice _ _ fits, Nat.div_add_mod] at bit
  rw [byteAt, byte]
  exact bit

/-! ## Plane records -/

theorem planeFields_bounds {gray target slope tolLo tolHi limit rounding : Nat} {x : PlaneRecord}
    (fields : planeFields gray target slope tolLo tolHi limit rounding = some x) :
    gray ≤ 1023 ∧ target ≤ 65534 ∧ slope ≤ 2047 ∧ tolLo ≤ 4095 ∧ tolHi ≤ 4095 ∧ limit ≤ 127 := by
  unfold planeFields at fields
  split at fields
  · omega
  · cases fields

/-- A plane is restored from the 16 bytes that hold it. -/
theorem restoredPlane_planeBytes {d : List Byte} {p : Plane} {y : Option PlaneRecord}
    (part : slice d (16 * p.index) 16 = planeBytes y)
    (legal : ∀ x, y = some x → planeFields x.gray x.target x.slope x.tolLo x.tolHi x.limit
      (match x.rounding with | .nearest => 0 | .towardZero => 1) = some x) : restoredPlane d p = y := by
  obtain ⟨bytes, held⟩ : ∃ bytes, bytes = planeBytes y := ⟨_, rfl⟩
  rw [← held] at part
  have present : byteAt d (16 * p.index) = byteAt bytes 0 := byteAt_within part (b := 0) rfl (by decide)
  rw [restoredPlane, present]
  cases y with
  | none => 
    subst held
    exact if_neg (by decide)
  | some x =>
    have fields := legal x rfl
    obtain ⟨gray, target, slope, tolLo, tolHi, limit⟩ := planeFields_bounds fields
    simp only [planeBytes, le, List.cons_append, List.nil_append] at held
    have two : ∀ b v, b + 2 ≤ 16 → slice bytes b 2 = le 2 v → v < 65536 → fieldAt d (16 * p.index + b) 2 = v :=
      fun b v inside here small => by
        rw [fieldAt_within part rfl inside, fieldAt_le 2 v here]
        exact Nat.mod_eq_of_lt small
    have one : ∀ b, b < 16 → byteAt d (16 * p.index + b) = byteAt bytes b := fun b inside => byteAt_within part rfl inside
    have first : byteAt bytes 0 = 1 := by rw [held]; rfl
    have rounded : byteAt bytes 12 = match x.rounding with | .nearest => 0 | .towardZero => 1 := by
      rw [held]
      cases x.rounding <;> rfl
    have limited : byteAt bytes 11 = x.limit := by
      rw [held]
      exact Nat.mod_eq_of_lt (by omega)
    rw [if_pos first, planeFieldsAt]
    have grayAt := two 1 x.gray (by decide) (by rw [held]; rfl) (by omega)
    have targetAt := two 3 x.target (by decide) (by rw [held]; rfl) (by omega)
    have slopeAt := two 5 x.slope (by decide) (by rw [held]; rfl) (by omega)
    have loAt := two 7 x.tolLo (by decide) (by rw [held]; rfl) (by omega)
    have hiAt := two 9 x.tolHi (by decide) (by rw [held]; rfl) (by omega)
    have limitAt := (one 11 (by decide)).trans limited
    have roundingAt := (one 12 (by decide)).trans rounded
    simp only [Nat.add_assoc, Nat.reduceAdd, grayAt, targetAt, slopeAt, loAt, hiAt, limitAt, roundingAt]
    exact fields

/-- The plane block holds each plane's 16 bytes in turn. -/
theorem Grid.restoredPlane_eq {g : Grid} {p : Plane} (legal : ∀ x, g.planeRecord p = some x → planeFields x.gray x.target x.slope
    x.tolLo x.tolHi x.limit (match x.rounding with | .nearest => 0 | .towardZero => 1) = some x) :
    restoredPlane (padTo 60 0 (planeBytes g.low ++ planeBytes g.mid ++ planeBytes g.high)) p = g.planeRecord p := by
  have size : ∀ y, (planeBytes y).length = 16 := fun y => by
    cases y with
    | none => rfl
    | some x => simp only [planeBytes, List.length_append, le_length, List.length_cons, List.length_nil]
  refine restoredPlane_planeBytes ?_ legal
  have fits : 16 * p.index + 16 ≤ 48 := by cases p <;> decide
  rw [slice_padTo (by simp only [List.length_append, size]; omega) (by omega)]
  have parts := slice_flatten size [] (xs := [g.low, g.mid, g.high]) (i := p.index) (x := g.planeRecord p) (by cases p <;> rfl)
  simp only [List.map_cons, List.map_nil, List.flatten_cons, List.flatten_nil, List.append_nil] at parts
  rw [List.append_assoc]
  exact parts

/-! ## The whole image -/

/-- The data of the image's first block. -/
def Grid.parkHead (g : Grid) (gen scale : Nat) : List Byte :=
  le 4 gen ++ le 4 g.generation ++ [BitVec.ofNat 8 g.cols, BitVec.ofNat 8 g.rows, BitVec.ofNat 8 g.width, BitVec.ofNat 8 g.shift]
    ++ le 2 scale

theorem Grid.parkHead_fields {g : Grid} (sound : g.sound) {gen scale : Nat} (small : gen < 2 ^ 32) (fits : scale < 65536) :
    let d := padTo 60 0 (g.parkHead gen scale)
    fieldAt d 0 4 = gen ∧ fieldAt d 4 4 = g.generation ∧ byteAt d 8 = g.cols ∧ byteAt d 9 = g.rows ∧ byteAt d 10 = g.width ∧
    byteAt d 11 = g.shift ∧ fieldAt d 12 2 = scale := by
  obtain ⟨cols, rows, -⟩ := Grid.sound_bounds sound
  obtain ⟨-, -, -, -, width, shift, generation, mark⟩ := sound
  unfold genMax at mark
  obtain ⟨d, hd⟩ : ∃ d, d = padTo 60 0 (g.parkHead gen scale) := ⟨_, rfl⟩
  rw [← hd]
  have short : (g.parkHead gen scale).length = 14 := rfl
  rw [padTo_of_le (by omega), short] at hd
  simp only [Grid.parkHead, le, List.cons_append, List.nil_append] at hd
  subst hd
  exact ⟨(fieldAt_le 4 gen rfl).trans (Nat.mod_eq_of_lt (by omega)), (fieldAt_le 4 g.generation rfl).trans (Nat.mod_eq_of_lt (by omega)),
    byteAt_code rfl (by omega), byteAt_code rfl (by omega), byteAt_code rfl (by omega), byteAt_code rfl (by omega),
    (fieldAt_le 2 scale rfl).trans (Nat.mod_eq_of_lt (by omega))⟩

theorem untrustedSectors_nil {blocks : List (Option (List Byte))} (trusted : ∀ b ∈ blocks, b.isNone = false) (base : Nat) :
    untrustedSectors base blocks = [] := by
  have none : (List.range (ceilDiv blocks.length 64)).filter (fun i => (slice blocks (64 * i) 64).any Option.isNone) = [] := by
    rw [List.filter_eq_nil_iff]
    intro i _
    rw [Bool.not_eq_true, List.any_eq_false]
    intro b mem
    rw [trusted b (List.mem_of_mem_drop (List.mem_of_mem_take mem))]
    nofun
  rw [untrustedSectors, none]
  rfl

section
variable {g : Grid} (gen scale : Nat) {i : Nat}

theorem Grid.parkBlocks_codes (inside : i < ceilDiv g.codes.length 60) :
    (g.parkBlocks gen scale)[2 + i]? = some (slice (g.codes.map byteOfInt) (60 * i) 60) := by
  have length : (g.codes.map byteOfInt).length = g.codes.length := List.length_map _
  have count : (chunks60 (g.codes.map byteOfInt)).length = ceilDiv g.codes.length 60 := by rw [chunks60_length, length]; rfl
  rw [Nat.add_comm]
  show (chunks60 (g.codes.map byteOfInt) ++ chunks60 (packMarks g.marks))[i]? = _
  rw [List.getElem?_append_left (by rw [count]; exact inside)]
  exact chunks60_getElem? (by rw [length]; exact inside)

theorem Grid.parkBlocks_marks (inside : i < ceilDiv (ceilDiv g.marks.length 8) 60) :
    (g.parkBlocks gen scale)[2 + ceilDiv g.codes.length 60 + i]? = some (slice (packMarks g.marks) (60 * i) 60) := by
  have count : (chunks60 (g.codes.map byteOfInt)).length = ceilDiv g.codes.length 60 := by
    rw [chunks60_length, List.length_map]
    rfl
  rw [Nat.add_assoc, Nat.add_comm]
  show (chunks60 (g.codes.map byteOfInt) ++ chunks60 (packMarks g.marks))[ceilDiv g.codes.length 60 + i]? = _
  rw [← count, List.getElem?_append_right (Nat.le_add_right _ _), Nat.add_sub_cancel_left]
  exact chunks60_getElem? (by rw [packMarks_length]; exact inside)

end

theorem ceilDiv_marks (n : Nat) : ceilDiv (ceilDiv n 8) 60 = ceilDiv n 480 := by
  unfold ceilDiv
  omega

/-- A zone-plane read from its blocks is the one that was packed. -/
theorem parkZonePlane_packed {codes : List Int} {marks : List Bool} {cs ms : List (Option (List Byte))} {k : Nat}
    (inside : k < codes.length) (same : marks.length = codes.length) (inRange : ∀ c ∈ codes, codeInRange c)
    (unknown : marks.getD k false = true → codes.getD k 0 = 0)
    (code : cs.getD (k / 60) none = some (padTo 60 0 (slice (codes.map byteOfInt) (60 * (k / 60)) 60)))
    (mark : ms.getD (k / 480) none = some (padTo 60 0 (slice (packMarks marks) (60 * (k / 480)) 60))) :
    parkZonePlane cs ms k = (codes.getD k 0, marks.getD k false) := by
  have byte : signedByte ((padTo 60 0 (slice (codes.map byteOfInt) (60 * (k / 60)) 60)).getD (k % 60) 0) = codes.getD k 0 := by
    rw [getD_chunk (by rw [List.length_map]; exact inside), List.getD_eq_getElem _ _ (by rw [List.length_map]; exact inside),
      List.getElem_map, List.getD_eq_getElem _ _ inside]
    exact signedByte_byteOfInt (inRange _ (List.getElem_mem inside))
  have bit : (byteAt (padTo 60 0 (slice (packMarks marks) (60 * (k / 480)) 60)) (k % 480 / 8)).testBit (k % 8) = marks.getD k false := by
    have place : k / 8 / 60 = k / 480 ∧ k / 8 % 60 = k % 480 / 8 := by omega
    have packed : k / 8 < (packMarks marks).length := by
      rw [packMarks_length]
      unfold ceilDiv
      omega
    rw [← packMarks_bit (by omega), byteAt, ← place.1, ← place.2, getD_chunk packed]
    rfl
  rw [parkZonePlane, code, mark]
  dsimp only
  rw [bit, byte]
  cases marked : marks.getD k false with
  | false => rfl
  | true => rw [unknown marked]; rfl

/-- A park image read back gives its grid, with no condition. -/
theorem Grid.readPark_parkImage {g : Grid} {q : Geometry} {r : CommitRecord} {m : Memory} {base : Nat} (sound : g.sound)
    (geometry : g.geometry = some q) (unknown : ∀ k, k < g.codes.length → g.marks.getD k false = true → g.codes.getD k 0 = 0)
    (planes : ∀ p x, g.planeRecord p = some x → planeFields x.gray x.target x.slope x.tolLo x.tolHi x.limit
      (match x.rounding with | .nearest => 0 | .towardZero => 1) = some x)
    (gen : r.parkGen = g.generation) (image : r.parkImage < 2 ^ 32) (scale : r.scale < 65536)
    (read : Memory.read m base (g.parkImage r.parkImage r.scale).length = g.parkImage r.parkImage r.scale) :
    readPark r m base = some { grid := { g with genMark := 0, lock := none, hold := false }, reports := [] } := by
  obtain ⟨f0, f4, f8, f9, f10, f11, f12⟩ := Grid.parkHead_fields sound image scale
  obtain ⟨dims, codes, marks, inRange, width, shift, -, -⟩ := id sound
  have cols : g.cols = q.cols := by rw [Grid.cols, geometry]
  have rows : g.rows = q.rows := by rw [Grid.rows, geometry]
  have head := Grid.trusted_parkBlock (i := 0) read rfl
  have second := Grid.trusted_parkBlock (i := 1) read rfl
  have count : 3 * (q.cols * q.rows) = g.codes.length := by rw [codes, Grid.zones, cols, rows]
  rw [readPark, head, second]
  dsimp only
  have agrees : parkHeaderSound r (padTo 60 0 (g.parkHead r.parkImage r.scale)) = true := by
    rw [geometry] at dims
    simp only [parkHeaderSound, f0, f4, f8, f9, f10, f11, f12, gen, cols, rows, decide_true, Bool.true_and, Bool.and_true,
      Bool.and_eq_true, decide_eq_true_eq]
    omega
  refine (if_pos agrees).trans ?_
  have code : ∀ i, i < ceilDiv g.codes.length 60 → trustedData (areaBlock m base (2 + i)) =
      some (padTo 60 0 (slice (g.codes.map byteOfInt) (60 * i) 60)) := fun i inside =>
    Grid.trusted_parkBlock read (Grid.parkBlocks_codes _ _ inside)
  have mark : ∀ i, i < ceilDiv g.codes.length 480 → trustedData (areaBlock m base (2 + ceilDiv g.codes.length 60 + i)) =
      some (padTo 60 0 (slice (packMarks g.marks) (60 * i) 60)) := fun i inside =>
    Grid.trusted_parkBlock read (Grid.parkBlocks_marks _ _ (by rw [marks, ← codes, ceilDiv_marks]; exact inside))
  have zonePlanes : ∀ k ∈ List.range g.codes.length, parkZonePlane
      ((List.range (ceilDiv g.codes.length 60)).map fun i => trustedData (areaBlock m base (2 + i)))
      ((List.range (ceilDiv g.codes.length 480)).map fun i => trustedData (areaBlock m base (2 + ceilDiv g.codes.length 60 + i))) k =
      (g.codes.getD k 0, g.marks.getD k false) := fun k hk => by
    rw [List.mem_range] at hk
    have inCodes : k / 60 < ceilDiv g.codes.length 60 := by unfold ceilDiv; omega
    have inMarks : k / 480 < ceilDiv g.codes.length 480 := by unfold ceilDiv; omega
    refine parkZonePlane_packed hk (marks.trans codes.symm) inRange (unknown k hk) ?_ ?_
    · rw [List.getD_eq_getElem?_getD, List.getElem?_map, List.getElem?_range inCodes]
      exact code _ inCodes
    · rw [List.getD_eq_getElem?_getD, List.getElem?_map, List.getElem?_range inMarks]
      exact mark _ inMarks
  have reports : untrustedSectors base ([some (padTo 60 0 (g.parkHead r.parkImage r.scale)), some (padTo 60 0 (planeBytes g.low ++
      planeBytes g.mid ++ planeBytes g.high))] ++ ((List.range (ceilDiv g.codes.length 60)).map fun i =>
        trustedData (areaBlock m base (2 + i))) ++ ((List.range (ceilDiv g.codes.length 480)).map fun i =>
          trustedData (areaBlock m base (2 + ceilDiv g.codes.length 60 + i)))) = [] := untrustedSectors_nil (fun b mem => by
    rcases List.mem_append.1 mem with mem | mem
    · rcases List.mem_append.1 mem with mem | mem
      · simp only [List.mem_cons, List.not_mem_nil, or_false] at mem
        rcases mem with rfl | rfl <;> rfl
      · obtain ⟨i, hi, rfl⟩ := List.mem_map.1 mem
        rw [code i (List.mem_range.1 hi)]
        rfl
    · obtain ⟨i, hi, rfl⟩ := List.mem_map.1 mem
      rw [mark i (List.mem_range.1 hi)]
      rfl) base
  have whole : parkGrid r m base (padTo 60 0 (g.parkHead r.parkImage r.scale)) (padTo 60 0 (planeBytes g.low ++ planeBytes g.mid ++
      planeBytes g.high)) = { grid := { g with genMark := 0, lock := none, hold := false }, reports := [] } := by
    have zps := List.map_congr_left zonePlanes
    rw [parkGrid]
    simp only [f8, f9, f10, f11, cols, rows, count, zps, reports, List.map_map]
    rw [Grid.restoredPlane_eq (planes .low), Grid.restoredPlane_eq (planes .mid), Grid.restoredPlane_eq (planes .high)]
    have codesBack : (List.range g.codes.length).map (Prod.fst ∘ fun k => (g.codes.getD k 0, g.marks.getD k false)) = g.codes :=
      (eq_map_getD g.codes 0).symm
    have marksBack : (List.range g.codes.length).map (Prod.snd ∘ fun k => (g.codes.getD k 0, g.marks.getD k false)) = g.marks := by
      rw [codes, ← marks]
      exact (eq_map_getD g.marks false).symm
    have there : some ({ cols := q.cols, rows := q.rows } : Geometry) = g.geometry := geometry.symm
    rw [codesBack, marksBack, gen, there]
    rfl
  exact congrArg some whole

end Sys2Proof.Machine
end

section
/-! Resume from any record and flash (R147 to R152); the statement O20. -/

namespace Sys2Proof.Machine

/-! ## Sectors of an area, block by block -/

theorem mem_slice {α : Type} {l : List α} {off n : Nat} {x : α} : x ∈ slice l off n ↔ ∃ j < n, l[off + j]? = some x := by
  rw [List.mem_iff_getElem?]
  constructor
  · rintro ⟨j, at'⟩
    have inside : j < n := by
      have := (List.getElem?_eq_some_iff.mp at').1
      simp only [slice, List.length_take] at this
      omega
    refine ⟨j, inside, ?_⟩
    rwa [slice, List.getElem?_take_of_lt inside, List.getElem?_drop] at at'
  · rintro ⟨j, inside, at'⟩
    exact ⟨j, by rw [slice, List.getElem?_take_of_lt inside, List.getElem?_drop, at']⟩

/-- A sector of an area holds a block of a kind. -/
theorem any_slice {α : Type} (f : Nat → α) (p : α → Bool) (count i : Nat) : (slice ((List.range count).map f) (64 * i) 64).any p =
    (List.range 64).any fun j => decide (64 * i + j < count) && p (f (64 * i + j)) := by
  rw [Bool.eq_iff_iff, List.any_eq_true, List.any_eq_true]
  simp only [mem_slice, List.mem_range, Bool.and_eq_true, decide_eq_true_eq, List.getElem?_map]
  constructor
  · rintro ⟨x, ⟨j, hj, at'⟩, holds⟩
    by_cases inside : 64 * i + j < count
    · rw [List.getElem?_range inside] at at'
      cases at'
      exact ⟨j, hj, inside, holds⟩
    · rw [List.getElem?_eq_none (by rw [List.length_range]; omega)] at at'
      cases at'
  · rintro ⟨j, hj, inside, holds⟩
    exact ⟨_, ⟨j, hj, by rw [List.getElem?_range inside]; rfl⟩, holds⟩

/-! ## The park image (R148, R149) -/

theorem parkHeaderSound_iff (r : CommitRecord) (d : List Byte) : parkHeaderSound r d = true ↔
    fieldAt d 0 4 = r.parkImage ∧ fieldAt d 4 4 = r.parkGen ∧ 1 ≤ byteAt d 8 ∧ byteAt d 8 ≤ 128 ∧ 1 ≤ byteAt d 9 ∧ byteAt d 9 ≤ 72 ∧
    (byteAt d 10 = 8 ∨ byteAt d 10 = 6) ∧ byteAt d 11 ≤ 3 ∧ fieldAt d 12 2 = r.scale := by
  simp only [parkHeaderSound, Bool.and_eq_true, decide_eq_true_eq, and_assoc]

theorem readPark_eq (r : CommitRecord) (m : Memory) (base : Nat) : readPark r m base =
    if (decodeEmbedded (areaBlock m base 0)).trusted = true ∧ (decodeEmbedded (areaBlock m base 1)).trusted = true ∧
        parkHeaderSound r (embeddedData (areaBlock m base 0)) = true then
      some (parkGrid r m base (embeddedData (areaBlock m base 0)) (embeddedData (areaBlock m base 1)))
    else none := by
  unfold readPark trustedData
  cases (decodeEmbedded (areaBlock m base 0)).trusted <;> cases (decodeEmbedded (areaBlock m base 1)).trusted <;>
    simp only [if_true, if_false, Bool.false_eq_true, false_and, and_false, true_and]

/-- The blocks of a park image, in the order of their addresses. -/
theorem parkBlocks_range {α : Type} (f : Nat → α) (a b : Nat) : [f 0, f 1] ++ (List.range a).map (fun i => f (2 + i)) ++
    (List.range b).map (fun i => f (2 + a + i)) = (List.range (2 + a + b)).map f := by
  rw [List.range_add, List.range_add, List.map_append, List.map_append, List.map_map, List.map_map]
  rfl

theorem trustedData_isNone (b : List Byte) : (trustedData b).isNone = !(decodeEmbedded b).trusted := by
  unfold trustedData
  cases (decodeEmbedded b).trusted <;> rfl

theorem untrustedSectors_range (m : Memory) (base count : Nat) :
    untrustedSectors base ((List.range count).map fun k => trustedData (areaBlock m base k)) =
      ((List.range ((count + 63) / 64)).filter fun i => (List.range 64).any fun j => decide (64 * i + j < count) &&
        !(decodeEmbedded (areaBlock m base (64 * i + j))).trusted).map fun i => base + 4096 * i := by
  unfold untrustedSectors
  rw [List.length_map, List.length_range]
  simp only [any_slice, trustedData_isNone]
  rfl

/-- Zone-plane `k` from the blocks that hold its code and its mark. -/
theorem parkZonePlane_eq {cs ms : List (Option (List Byte))} {c m : List Byte} {k : Nat} (code : cs.getD (k / 60) none = trustedData c)
    (mark : ms.getD (k / 480) none = trustedData m) :
    let good := (decodeEmbedded c).trusted && (decodeEmbedded m).trusted && !(byteAt (embeddedData m) (k % 480 / 8)).testBit (k % 8)
    parkZonePlane cs ms k = (if good = true then ((embeddedData c).getD (k % 60) 0).toInt else 0, !good) := by
  intro good
  rw [parkZonePlane, code, mark]
  unfold trustedData
  simp only [good]
  by_cases codeTrusted : (decodeEmbedded c).trusted = true
  · by_cases markTrusted : (decodeEmbedded m).trusted = true
    · by_cases unknown : (byteAt (embeddedData m) (k % 480 / 8)).testBit (k % 8) = true
      · simp only [codeTrusted, markTrusted, unknown, if_true]
        rfl
      · simp only [codeTrusted, markTrusted, unknown, if_true]
        rfl
    · simp only [codeTrusted, markTrusted, if_true]
      rfl
  · simp only [codeTrusted]
    rfl

/-- What an accepted park image gives (R149). -/
theorem parkGrid_eq {r : CommitRecord} {m : Memory} {base : Nat} {h planes : List Byte}
    (head : trustedData (areaBlock m base 0) = some h) (second : trustedData (areaBlock m base 1) = some planes) :
    let x := parkGrid r m base h planes
    let n := 3 * (byteAt h 8 * byteAt h 9)
    let blocks := 2 + (n + 59) / 60 + (n + 479) / 480
    let ok := fun k => (decodeEmbedded (areaBlock m base k)).trusted
    x.reports = ((List.range ((blocks + 63) / 64)).filter fun i => (List.range 64).any fun j => decide (64 * i + j < blocks) &&
      !ok (64 * i + j)).map (fun i => { cls := .storeUncorrected, address := some (base + 4096 * i) }) ∧
    x.grid.codes.length = n ∧ x.grid.marks.length = n ∧
    ∀ k, k < n →
      let c := 2 + k / 60
      let d := 2 + (n + 59) / 60 + k / 480
      let good := ok c && ok d && !(byteAt (embeddedData (areaBlock m base d)) (k % 480 / 8)).testBit (k % 8)
      x.grid.codes[k]? = some (if good = true then ((embeddedData (areaBlock m base c)).getD (k % 60) 0).toInt else 0) ∧
      x.grid.marks[k]? = some (!good) := by
  intro x n blocks ok
  refine ⟨?_, ?_, ?_, fun k hk => ?_⟩
  · have listed : x.reports = (untrustedSectors base ((List.range blocks).map fun k => trustedData (areaBlock m base k))).map uncorrected := by
      rw [← parkBlocks_range (fun k => trustedData (areaBlock m base k)), head, second]
      rfl
    rw [listed, untrustedSectors_range, List.map_map]
    rfl
  · show (List.map _ (List.map _ (List.range n))).length = n
    rw [List.length_map, List.length_map, List.length_range]
  · show (List.map _ (List.map _ (List.range n))).length = n
    rw [List.length_map, List.length_map, List.length_range]
  · intro c d good
    have inCodes : k / 60 < ceilDiv n 60 := by unfold ceilDiv; omega
    have inMarks : k / 480 < ceilDiv n 480 := by unfold ceilDiv; omega
    have code : ((List.range (ceilDiv n 60)).map fun i => trustedData (areaBlock m base (2 + i))).getD (k / 60) none =
        trustedData (areaBlock m base c) := by
      rw [List.getD_eq_getElem?_getD, List.getElem?_map, List.getElem?_range inCodes]
      rfl
    have mark : ((List.range (ceilDiv n 480)).map fun i => trustedData (areaBlock m base (2 + ceilDiv n 60 + i))).getD (k / 480) none =
        trustedData (areaBlock m base d) := by
      rw [List.getD_eq_getElem?_getD, List.getElem?_map, List.getElem?_range inMarks]
      rfl
    have zonePlane := parkZonePlane_eq code mark
    have zps : ∀ {β : Type} (f : Int × Bool → β), (((List.range n).map (parkZonePlane
        ((List.range (ceilDiv n 60)).map fun i => trustedData (areaBlock m base (2 + i)))
        ((List.range (ceilDiv n 480)).map fun i => trustedData (areaBlock m base (2 + ceilDiv n 60 + i))))).map f)[k]? =
        some (f (if good = true then ((embeddedData (areaBlock m base c)).getD (k % 60) 0).toInt else 0, !good)) := fun f => by
      rw [List.getElem?_map, List.getElem?_map, List.getElem?_range hk, Option.map_some, zonePlane]
      rfl
    exact ⟨zps Prod.fst, zps Prod.snd⟩

/-! ## PANEL (R150, R151) -/

theorem panelHeaderSound_iff (r : CommitRecord) (d : List Byte) : panelHeaderSound r d = true ↔
    byteAt d 0 = 0x5A ∧ byteAt d 1 = 0xC3 ∧ byteAt d 2 = 1 ∧ byteAt d 3 = 3 ∧ byteAt d 4 = r.cols ∧ byteAt d 5 = r.rows ∧
    byteAt d 6 = r.width ∧ byteAt d 7 = r.shift ∧ fieldAt d 8 4 = r.uniGen ∧ fieldAt d 18 4 = r.uniLength := by
  simp only [panelHeaderSound, Bool.and_eq_true, decide_eq_true_eq, and_assoc]

/-- Every byte that carries a bit of a code lies in the block of its first or of its last bit. -/
theorem codeOffsets_all (width k : Nat) (p : Nat → Bool) : ((codeOffsets width k).all fun o => p (o / 64)) =
    (p ((if width = 6 then 32 + 6 * k / 8 else 32 + k) / 64) && p ((if width = 6 then 32 + (6 * k + 5) / 8 else 32 + k) / 64)) := by
  rw [Bool.eq_iff_iff, List.all_eq_true, Bool.and_eq_true]
  constructor
  · intro all
    have block : ∀ i, i ∈ (codeOffsets width k).map (· / 64) → p i = true := fun i mem => by
      obtain ⟨o, ho, rfl⟩ := List.mem_map.1 mem
      exact all o ho
    exact ⟨block _ ((codeOffsets_block width k _).2 (.inl rfl)), block _ ((codeOffsets_block width k _).2 (.inr rfl))⟩
  · rintro ⟨first, last⟩ o ho
    rcases (codeOffsets_block width k (o / 64)).1 (List.mem_map.2 ⟨o, ho, rfl⟩) with e | e
    · rwa [← e]
    · rwa [← e]

/-- Six bits out of three bytes do not look at the bytes that carry none of them. -/
theorem sixBits_congr {b c : Nat → Nat} {k : Nat} (small : ∀ o, b o < 256 ∧ c o < 256)
    (same : ∀ o ∈ codeOffsets 6 k, b o = c o) :
    let o := 32 + 3 * (k / 4)
    BitVec.ofNat 6 ((b o + 256 * b (o + 1) + 65536 * b (o + 2)) / 2 ^ (6 * (k % 4))) =
      BitVec.ofNat 6 ((c o + 256 * c (o + 1) + 65536 * c (o + 2)) / 64 ^ (k % 4)) := by
  intro o
  refine BitVec.eq_of_toNat_eq ?_
  rw [BitVec.toNat_ofNat, BitVec.toNat_ofNat]
  unfold codeOffsets at same
  rw [if_pos rfl] at same
  dsimp only at same
  obtain ⟨b0, c0⟩ := small o
  obtain ⟨b1, c1⟩ := small (o + 1)
  obtain ⟨b2, c2⟩ := small (o + 2)
  obtain ⟨r, hr, place⟩ : ∃ r, r < 4 ∧ k % 4 = r := ⟨k % 4, Nat.mod_lt _ (by decide), rfl⟩
  rw [place] at same ⊢
  match r, hr with
  | 0, _ =>
    have e := same o List.mem_cons_self
    omega
  | 1, _ =>
    have e := same o List.mem_cons_self
    have f := same (o + 1) (List.mem_cons_of_mem _ List.mem_cons_self)
    omega
  | 2, _ =>
    have e := same (o + 1) List.mem_cons_self
    have f := same (o + 2) (List.mem_cons_of_mem _ List.mem_cons_self)
    omega
  | 3, _ =>
    have e := same (o + 2) List.mem_cons_self
    omega

theorem clampByte_eq (c : Int) : clampByte c = max (-128) (min 127 c) := by
  unfold clampByte
  split_ifs <;> omega

section
variable {r : CommitRecord} {m : Memory} {l : Layout}

/-- The blocks of PANEL as a zone-plane reads them. -/
def panelBlocks (m : Memory) (l : Layout) (len : Nat) : List (Option (List Byte)) :=
  ((List.range len).map (panelBlock m l)).map vouched

theorem panelBlocks_getD {len i : Nat} (inside : i < len) :
    (panelBlocks m l len).getD i none = vouched (panelBlock m l i) := by
  rw [panelBlocks, List.getD_eq_getElem?_getD, List.getElem?_map, List.getElem?_map, List.getElem?_range inside]
  rfl

theorem vouched_isSome (b : List Byte × Decode) : (vouched b).isSome = b.2.trusted := by
  unfold vouched
  cases b.2.trusted <;> rfl

theorem byteAt_lt (b : List Byte) (i : Nat) : byteAt b i < 256 := (b.getD i 0).isLt

/-- A byte of a block that can be trusted. -/
theorem panelByte_eq {len o : Nat} (inside : o / 64 < len) (trusted : (panelBlock m l (o / 64)).2.trusted = true) :
    panelByte (panelBlocks m l len) o = byteAt (panelBlock m l (o / 64)).1 (o % 64) := by
  rw [panelByte, panelBlocks_getD inside, vouched, if_pos trusted]

theorem panelByte_lt (blocks : List (Option (List Byte))) (o : Nat) : panelByte blocks o < 256 := by
  unfold panelByte
  split
  · exact byteAt_lt _ _
  · decide

/-- Zone-plane `k` of PANEL. -/
theorem panelZonePlane_eq {width shift len k : Nat} (wide : width = 8 ∨ width = 6)
    (inside : ∀ o ∈ codeOffsets width k, o / 64 < len) :
    let byte := fun o => byteAt (panelBlock m l (o / 64)).1 (o % 64)
    let o := 32 + 3 * (k / 4)
    let first := if width = 6 then 32 + 6 * k / 8 else 32 + k
    let last := if width = 6 then 32 + (6 * k + 5) / 8 else 32 + k
    let good := (panelBlock m l (first / 64)).2.trusted && (panelBlock m l (last / 64)).2.trusted
    let p : Int := if width = 6 then
        (BitVec.ofNat 6 ((byte o + 256 * byte (o + 1) + 65536 * byte (o + 2)) / 64 ^ (k % 4))).toInt
      else (BitVec.ofNat 8 (byte (32 + k))).toInt
    panelZonePlane width shift (panelBlocks m l len) k =
      (if good = true then max (-128) (min 127 (p * 2 ^ shift)) else 0, !good) := by
  intro byte o first last good p
  have all : ((codeOffsets width k).all fun o => ((panelBlocks m l len).getD (o / 64) none).isSome) = good := by
    have here : ((codeOffsets width k).all fun o => ((panelBlocks m l len).getD (o / 64) none).isSome) =
        (codeOffsets width k).all fun o => (panelBlock m l (o / 64)).2.trusted := by
      rw [Bool.eq_iff_iff, List.all_eq_true, List.all_eq_true]
      exact forall₂_congr fun o mem => by rw [panelBlocks_getD (inside o mem), vouched_isSome]
    rw [here, codeOffsets_all width k fun i => (panelBlock m l i).2.trusted]
  rw [panelZonePlane, all]
  by_cases trusted : good = true
  · have read : ∀ o ∈ codeOffsets width k, panelByte (panelBlocks m l len) o = byte o := fun o mem => by
      rw [← all, List.all_eq_true] at trusted
      have some := trusted o mem
      rw [panelBlocks_getD (inside o mem), vouched_isSome] at some
      exact panelByte_eq (inside o mem) some
    have presented : panelPresented width (panelBlocks m l len) k = p := by
      rw [panelPresented]
      rcases wide with rfl | rfl
      · rw [if_neg (by decide), read (32 + k) List.mem_cons_self]
        rfl
      · exact congrArg BitVec.toInt (sixBits_congr (fun o => ⟨panelByte_lt _ _, byteAt_lt _ _⟩) read)
    rw [if_pos trusted, if_pos trusted, trusted, presented, clampByte_eq]
    simp only [codeOrMark, Nat.cast_pow, Nat.cast_ofNat, Bool.not_true]
  · have untrusted : good = false := Bool.eq_false_of_not_eq_true trusted
    rw [if_neg trusted, if_neg trusted, untrusted]
    rfl

/-- What PANEL gives (R151). -/
def panelGrid (r : CommitRecord) (m : Memory) (l : Layout) : Resumed :=
  let zps := (List.range (3 * (r.cols * r.rows))).map (panelZonePlane r.width r.shift (panelBlocks m l ((r.uniLength + 63) / 64)))
  { grid := { Grid.empty with
      geometry := some { cols := r.cols, rows := r.rows }, codes := zps.map Prod.fst, marks := zps.map Prod.snd
      width := r.width, shift := r.shift, generation := r.uniGen }
    reports := panelReports l (((List.range ((r.uniLength + 63) / 64)).map (panelBlock m l)).map Prod.snd) }

/-- PANEL is taken where the record's own fields, the first block's decode and its header have nothing wrong (R150). -/
theorem readPanel_eq (r : CommitRecord) (m : Memory) (l : Layout) : readPanel r m l =
    if r.uniformitySound = true ∧ (panelBlock m l 0).2 ≠ .blank ∧ (panelBlock m l 0).2 ≠ .uncorrectable ∧
        panelHeaderSound r (panelBlock m l 0).1 = true then
      some (panelGrid r m l)
    else none := by
  refine if_congr ?_ rfl rfl
  simp only [Bool.and_eq_true, decide_eq_true_eq, and_assoc]

theorem panelReports_eq (m : Memory) (l : Layout) (len : Nat) :
    panelReports l (((List.range len).map (panelBlock m l)).map Prod.snd) =
      (List.range ((len + 63) / 64)).flatMap fun i =>
        (if ((List.range 64).any fun j => decide (64 * i + j < len) && decide ((panelBlock m l (64 * i + j)).2 = .poisoned)) = true then
          [{ cls := .storeUncorrected, address := some (l.panel + 4096 * i), indirect := true }] else []) ++
        (if ((List.range 64).any fun j => decide (64 * i + j < len) &&
            decide ((panelBlock m l (64 * i + j)).2 = .uncorrectable ∨ (panelBlock m l (64 * i + j)).2 = .blank)) = true then
          [{ cls := .storeUncorrected, address := some (l.panel + 4096 * i) }] else []) := by
  rw [List.map_map, panelReports, List.length_map, List.length_range, List.flatMap_def]
  simp only [any_slice, Function.comp_apply, Bool.decide_or]
  rfl

/-- The bytes of a code lie below the presented length. -/
theorem codeOffsets_inside {width k n : Nat} (inside : k < n) : ∀ o ∈ codeOffsets width k,
    o / 64 < ((if width = 6 then 32 + 3 * ((n + 3) / 4) else 32 + n) + 63) / 64 := by
  intro o mem
  rcases (codeOffsets_block width k (o / 64)).1 (List.mem_map.2 ⟨o, mem, rfl⟩) with e | e
  · rw [← e]
    split <;> omega
  · rw [← e]
    split <;> omega

/-! ## The choice of the source (R147, R152) -/

theorem resumeFrom_park {x : Resumed} (tried : r.triesPark = true) (read : readPark r m l.park = some x) : resumeFrom r m l = x := by
  rw [resumeFrom, if_pos tried, read]

theorem resumeFrom_panel (rejected : r.triesPark = true → readPark r m l.park = none) : resumeFrom r m l =
    { resumePanel r m l with
      reports := (if r.triesPark = true then [uncorrected l.park] else []) ++ (resumePanel r m l).reports } := by
  rw [resumeFrom]
  by_cases tried : r.triesPark = true
  · rw [if_pos tried, rejected tried, if_pos tried]
    rfl
  · rw [if_neg tried, if_neg tried]
    rfl

end

/-- Settles O20: the park image, PANEL and the empty grid are the branches of `resumeFrom`. -/
theorem parkedGridsResume : Obligations.ParkedGridsResume := by
  refine ⟨fun g q r m base sound geometry unknown planes gen image scale read =>
    Grid.readPark_parkImage sound geometry unknown planes gen image scale read, fun r m l => ?_⟩
  intro x lost block ok data h n map blocks plane tried park read decode header byte np len panel any
  have parkIff : park ↔ tried = true ∧ ok 0 = true ∧ ok 1 = true ∧ parkHeaderSound r h = true :=
    and_congr_right fun _ => and_congr_right fun _ => and_congr_right fun _ => (parkHeaderSound_iff r h).symm
  have panelIff : panel ↔ r.uniformityValid = true ∧ r.uniformitySound = true ∧ (panelBlock m l 0).2 ≠ .blank ∧
      (panelBlock m l 0).2 ≠ .uncorrectable ∧ panelHeaderSound r (panelBlock m l 0).1 = true := by
    simp only [r.uniformitySound_iff, panelHeaderSound_iff, and_assoc]
    exact Iff.rfl
  have rejected : ¬park → r.triesPark = true → readPark r m l.park = none := fun not tries => by
    rw [readPark_eq]
    exact if_neg fun fits => not (parkIff.2 ⟨tries, fits⟩)
  refine ⟨fun parks => ?park, fun not panels => ?panel, fun not none => ?empty⟩
  case park =>
    obtain ⟨tries, first, second, fits⟩ := parkIff.1 parks
    have taken : x = parkGrid r m l.park h (data 1) :=
      resumeFrom_park tries ((readPark_eq r m l.park).trans (if_pos ⟨first, second, fits⟩))
    obtain ⟨reports, codes, marks, each⟩ := parkGrid_eq (r := r) (m := m) (base := l.park) (h := h) (planes := data 1)
      (if_pos first) (if_pos second)
    rw [taken]
    refine ⟨?_, codes, marks, each⟩
    exact congrArg (fun reports => ({ grid := (parkGrid r m l.park h (data 1)).grid, reports := reports } : Resumed)) reports
  case panel =>
    obtain ⟨valid, sound, blank, bad, header⟩ := panelIff.1 panels
    have length : r.uniLength = if r.width = 6 then 32 + 3 * ((np + 3) / 4) else 32 + np := by
      obtain ⟨-, -, -, -, -, -, -, length, -⟩ := panels
      exact length
    have width : r.width = 8 ∨ r.width = 6 := by
      obtain ⟨-, -, -, -, -, width, -⟩ := panels
      exact width
    have source : resumePanel r m l = panelGrid r m l := by
      rw [resumePanel, if_pos valid, readPanel_eq, if_pos ⟨sound, blank, bad, header⟩]
    have taken : x = { panelGrid r m l with
        reports := (if r.triesPark = true then [uncorrected l.park] else []) ++ (panelGrid r m l).reports } := by
      show resumeFrom r m l = _
      rw [resumeFrom_panel (rejected not), source]
    rw [panelGrid, panelReports_eq] at taken
    rw [taken]
    refine ⟨rfl, ?_, ?_, fun k hk => ?_⟩
    · show (List.map _ (List.map _ (List.range np))).length = np
      rw [List.length_map, List.length_map, List.length_range]
    · show (List.map _ (List.map _ (List.range np))).length = np
      rw [List.length_map, List.length_map, List.length_range]
    · intro o first last good p
      have zonePlane := panelZonePlane_eq (m := m) (l := l) (shift := r.shift) width (len := len) (k := k) (by
        show ∀ o ∈ codeOffsets r.width k, o / 64 < (r.uniLength + 63) / 64
        rw [length]
        exact codeOffsets_inside hk)
      have zps : ∀ {β : Type} (f : Int × Bool → β), (((List.range np).map (panelZonePlane r.width r.shift (panelBlocks m l len))).map
          f)[k]? = some (f (if good = true then max (-128) (min 127 (p * 2 ^ r.shift)) else 0, !good)) := fun f => by
        rw [List.getElem?_map, List.getElem?_map, List.getElem?_range hk, Option.map_some, zonePlane]
        rfl
      exact ⟨zps Prod.fst, zps Prod.snd⟩
  case empty =>
    have source : resumePanel r m l = { grid := Grid.empty, reports := if r.uniformityValid = true then [uncorrected l.panel] else [] } := by
      rw [resumePanel, readPanel_eq]
      by_cases valid : r.uniformityValid = true
      · rw [if_pos valid, if_pos valid, if_neg fun fits => none (panelIff.2 ⟨valid, fits⟩)]
      · rw [if_neg valid, if_neg valid]
    show resumeFrom r m l = _
    rw [resumeFrom_panel (rejected not), source]
    rfl

end Sys2Proof.Machine
end

section
/-! The start-up load (R17): which reports it makes and what each of its steps sets; the statement O21. -/

namespace Sys2Proof.Machine

/-! ## Reports made during the load -/

theorem State.raiseAll_append (s : State) (rs ts : List Report) : s.raiseAll (rs ++ ts) = (s.raiseAll rs).raiseAll ts := by
  induction rs generalizing s with
  | nil => rfl
  | cons r t ih => exact ih _

/-- The conditions of a load in mode `mode` that has made these reports; the session is the one at power-on. -/
structure State.Reported (mode : Mode) (rs : List Report) (u : State) : Prop where
  conds : u.conds = (State.raiseAll { State.reset with mode := mode } rs).conds
  session : u.session = State.reset.session
  mode : u.mode = mode

section
variable {mode : Mode} {rs : List Report} {u v : State}

theorem State.Reported.congr (h : u.Reported mode rs) (conds : v.conds = u.conds) (session : v.session = u.session)
    (same : v.mode = u.mode) : v.Reported mode rs :=
  ⟨conds.trans h.conds, session.trans h.session, same.trans h.mode⟩

theorem State.Reported.raise (h : u.Reported mode rs) (r : Report) : (u.raise r).Reported mode (rs ++ [r]) := by
  obtain ⟨conds, session, same⟩ := h
  have before : (State.raiseAll { State.reset with mode := mode } rs).session = State.reset.session ∧
      (State.raiseAll { State.reset with mode := mode } rs).mode = mode := by
    rw [State.raiseAll_eq]
    exact ⟨rfl, rfl⟩
  refine ⟨?_, ?_, ?_⟩
  · rw [State.raiseAll_append]
    exact State.raise_conds_congr conds (session.trans before.1.symm) (same.trans before.2.symm) r
  · rw [State.raise_eq]; exact session
  · rw [State.raise_eq]; exact same

theorem State.Reported.raiseAll (h : u.Reported mode rs) (ts : List Report) : (u.raiseAll ts).Reported mode (rs ++ ts) := by
  induction ts generalizing u rs with
  | nil => rw [List.append_nil]; exact h
  | cons r t ih =>
    have step := ih (h.raise r)
    rw [List.append_assoc] at step
    exact step

/-- The report of PFW asserting in step `n` of the load. -/
def pfwReport (i : PowerOnInput) (n : Nat) : List Report := if i.pfwStep = some n then [{ cls := .warning }] else []

theorem State.Reported.pfwAt (h : u.Reported mode rs) (i : PowerOnInput) (n : Nat) : (u.pfwAt i n).Reported mode (rs ++ pfwReport i n) := by
  unfold State.pfwAt pfwReport
  by_cases here : i.pfwStep = some n
  · rw [if_pos here, if_pos here]
    exact State.Reported.raise (u := { u with pfw := true }) (h.congr rfl rfl rfl) _
  · rw [if_neg here, if_neg here, List.append_nil]
    exact h

end

/-! ## The descriptor (R16) -/

/-- Base, size and alignment of the nine windows of a layout. -/
def Layout.windows (l : Layout) : List (Nat × Nat × Nat) :=
  nineWindows.map fun w => (l.base w, w.size, w.alignment)

theorem Layout.valid_windows (l : Layout) : l.valid = true ↔ (∀ w ∈ l.windows, w.1 % w.2.2 = 0 ∧ w.1 + w.2.1 ≤ 0x1000000) ∧
    l.windows.Pairwise (fun v w => v.1 + v.2.1 ≤ w.1 ∨ w.1 + w.2.1 ≤ v.1) := by
  rw [l.valid_iff, Layout.windows, List.forall_mem_map, List.pairwise_map]
  exact Iff.rfl

theorem descriptorLayout_iff (b : List Byte) (l : Layout) : descriptorLayout b = some l ↔
    (decodeEmbedded b).trusted = true ∧ byteAt (embeddedData b) 0 = 0xE6 ∧ byteAt (embeddedData b) 1 = 0x20 ∧
    byteAt (embeddedData b) 2 = 1 ∧ byteAt (embeddedData b) 3 = 24 ∧ l = layoutOf (embeddedData b) ∧ l.valid = true := by
  unfold descriptorLayout
  simp only [Option.ite_none_right_eq_some, Bool.and_eq_true, beq_iff_eq, Option.some.injEq, and_assoc]
  constructor
  · rintro ⟨trusted, b0, b1, b2, b3, valid, rfl⟩
    exact ⟨trusted, b0, b1, b2, b3, rfl, valid⟩
  · rintro ⟨trusted, b0, b1, b2, b3, rfl, valid⟩
    exact ⟨trusted, b0, b1, b2, b3, valid, rfl⟩

theorem descriptorLayout_spec (b : List Byte) (l : Layout) :
    let d := embeddedData b
    descriptorLayout b = some l ↔ (decodeEmbedded b).trusted = true ∧ byteAt d 0 = 0xE6 ∧ byteAt d 1 = 0x20 ∧
      byteAt d 2 = 1 ∧ byteAt d 3 = 24 ∧ l = layoutOf d ∧ (∀ w ∈ l.windows, w.1 % w.2.2 = 0 ∧ w.1 + w.2.1 ≤ 0x1000000) ∧
      l.windows.Pairwise (fun v w => v.1 + v.2.1 ≤ w.1 ∨ w.1 + w.2.1 ≤ v.1) := by
  intro d
  rw [descriptorLayout_iff, l.valid_windows]

/-- The bases of a valid layout fit three bytes. -/
theorem Layout.base_lt {l : Layout} (valid : l.valid = true) : ∀ w ∈ nineWindows, l.base w < 16777216 := fun w mem => by
  have fits := ((l.valid_iff.1 valid).1 w mem).2
  have some : 0 < w.size := by
    fin_cases mem <;> decide
  unfold flashSize at fits
  omega

theorem descriptorLayout_written {l : Layout} {fill : List Byte} (length : fill.length = 32) (valid : l.valid = true) :
    descriptorLayout (embedBlock ([0xE6, 0x20, 1, 24] ++ le 3 l.panel ++ le 3 l.panelCheck ++ le 3 l.aperture ++ le 3 l.keys
      ++ le 3 l.park ++ le 3 l.ring ++ le 3 l.profiles ++ le 3 l.remap ++ fill)) = some l := by
  obtain ⟨d, hd⟩ : ∃ d, d = [0xE6, 0x20, 1, 24] ++ le 3 l.panel ++ le 3 l.panelCheck ++ le 3 l.aperture ++ le 3 l.keys
      ++ le 3 l.park ++ le 3 l.ring ++ le 3 l.profiles ++ le 3 l.remap ++ fill := ⟨_, rfl⟩
  have sixty : d.length = 60 := by
    rw [hd]
    simp only [List.length_append, le_length, List.length_cons, List.length_nil, length]
  have small := Layout.base_lt valid
  rw [← hd, descriptorLayout_iff, decodeEmbedded_embedBlock sixty, embeddedData_embedBlock sixty]
  simp only [le, List.cons_append, List.nil_append] at hd
  have three : ∀ v, v < 16777216 → ∀ off, slice d off 3 = le 3 v → v = fieldAt d off 3 := fun v fits off part =>
    ((fieldAt_le 3 v part).trans (Nat.mod_eq_of_lt fits)).symm
  have layout : layoutOf d = l := by
    subst hd
    rw [layoutOf, ← three l.panel (small .panel (by decide)) 4 rfl, ← three l.panelCheck (small .panelCheck (by decide)) 7 rfl,
      ← three l.aperture (small .aperture (by decide)) 10 rfl, ← three l.keys (small .keys (by decide)) 13 rfl,
      ← three l.park (small .park (by decide)) 16 rfl, ← three l.ring (small .ring (by decide)) 19 rfl,
      ← three l.profiles (small .profiles (by decide)) 22 rfl, ← three l.remap (small .remap (by decide)) 25 rfl]
  subst hd
  exact ⟨rfl, rfl, rfl, rfl, rfl, layout.symm, valid⟩

/-! ## The load that ends in BYPASS (R17) -/

theorem State.powerOn_invalid {s : State} {i : PowerOnInput}
    (none : descriptorLayout (Memory.read (Memory.setAll s.flash.cells i.misread) descriptorBase 64) = none) :
    s.powerOn i = (((s.powerUp i.lineMode).pfwAt i 1).pfwAt i 2).loadBypass i := by
  simp only [State.powerOn, none]

/-- The state in which the load with an invalid descriptor ends, but for the lines that follow it. -/
theorem State.loadBypass_eq (s : State) (i : PowerOnInput) : (((s.powerUp i.lineMode).pfwAt i 1).pfwAt i 2).loadBypass i =
    { s.powerUp i.lineMode with
      pfw := decide (i.pfwStep = some 1) || decide (i.pfwStep = some 2)
      conds := (State.raiseAll State.reset (pfwReport i 1 ++ pfwReport i 2 ++ [{ cls := .descriptor }])).conds
      sysHold := false
      upstream := if i.selectHeld then
          some { ignored := true, command := .incomplete, addr := 0, occupied := false, treatment := .answered,
                 remapSlot := none, served := 0, data := [], firstFilled := none, overlayGen := none, pages := [] }
        else none } := by
  have start : (s.powerUp i.lineMode).Reported .bypass [] := ⟨rfl, rfl, rfl⟩
  have reported := ((start.pfwAt i 1).pfwAt i 2).raise { cls := .descriptor }
  have pfw : (((s.powerUp i.lineMode).pfwAt i 1).pfwAt i 2).pfw = (decide (i.pfwStep = some 1) || decide (i.pfwStep = some 2)) := by
    rw [State.pfwAt_pfw, State.pfwAt_pfw]
    rfl
  have conds := reported.conds
  have same : ({ State.reset with mode := .bypass } : State) = State.reset := rfl
  rw [same, List.nil_append] at conds
  rw [State.loadBypass, State.releaseHold, ← conds, ← pfw, State.raise_eq, State.pfwAt_eq, State.pfwAt_eq]

/-- Settles O21: the load ends after step 2, with the reports of PFW and of the descriptor. -/
theorem powerOnWithAnInvalidDescriptor : Obligations.PowerOnWithAnInvalidDescriptor := by
  refine ⟨fun i s none => ?load, fun b l => ⟨l.valid_windows, descriptorLayout_spec b l, fun fill length valid =>
    descriptorLayout_written length valid⟩, fun b => ?refused⟩
  case refused =>
    intro d bad
    rw [Option.eq_none_iff_forall_ne_some]
    intro l found
    obtain ⟨trusted, b0, b1, b2, b3, -⟩ := (descriptorLayout_iff b l).1 found
    rcases bad with h | h | h | h | h | h | h
    · rw [h] at trusted; cases trusted
    · rw [h] at trusted; cases trusted
    · rw [h] at trusted; cases trusted
    · exact h b0
    · exact h b1
    · exact h b2
    · exact h b3
  case load =>
    intro early
    obtain ⟨attn, records⟩ : (State.raiseAll State.reset (pfwReport i 1 ++ pfwReport i 2 ++ [{ cls := .descriptor }])).conds.attn = true ∧
        (State.raiseAll State.reset (pfwReport i 1 ++ pfwReport i 2 ++ [{ cls := .descriptor }])).conds.records.map
          (fun r => (r.cls, r.address, r.mode)) =
          (if early then [(.warning, Option.none, .bypass)] else []) ++ [(.descriptor, Option.none, .bypass)] := by
      unfold pfwReport
      by_cases first : i.pfwStep = some 1
      · have notSecond : i.pfwStep ≠ some 2 := fun e => absurd (first.symm.trans e) (by decide)
        rw [if_pos first, if_neg notSecond, if_pos (Or.inl first : early)]
        exact ⟨rfl, rfl⟩
      · by_cases second : i.pfwStep = some 2
        · rw [if_neg first, if_pos second, if_pos (Or.inr second : early)]
          exact ⟨rfl, rfl⟩
        · rw [if_neg first, if_neg second, if_neg (fun h : early => h.elim first second)]
          exact ⟨rfl, rfl⟩
    refine ⟨_, congrArg (fun x : State => Host.Outcome.next x.settle) ((State.powerOn_invalid none).trans (State.loadBypass_eq s i)),
      ?_, ?_, ?_, ?_⟩
    · rw [State.settle]
      dsimp only
      rw [attn, ← Bool.decide_or]
      rfl
    · cases i.selectHeld <;> simp
    · cases i.selectHeld <;> simp
    · exact records

end Sys2Proof.Machine
end

section
/-! Parts of the start-up load (R17): the latest record (R135), the key table (R155) and the region (R169). -/

namespace Sys2Proof.Machine

/-! ## The latest record (R135) -/

theorem latestOf_none {ps : List (Nat × Option CommitRecord)} (none : latestOf ps = none) : ∀ p ∈ ps, p.2 = Option.none := by
  induction ps with
  | nil => nofun
  | cons p t ih =>
    obtain ⟨i, r | r⟩ := p
    · exact fun q mem => (List.mem_cons.1 mem).elim (fun e => e ▸ rfl) (ih none q)
    · unfold latestOf at none
      split at none
      · cases none
      · split at none <;> cases none

/-- The latest record has the highest generation, and the lowest slot among equals. -/
theorem latestOf_best {ps : List (Nat × Option CommitRecord)} {x : Latest} (latest : latestOf ps = some x)
    (rising : ps.Pairwise fun p q => p.1 < q.1) {k : Nat} {r : CommitRecord} (mem : (k, some r) ∈ ps) :
    r.ringGen ≤ x.record.ringGen ∧ (r.ringGen = x.record.ringGen → x.slot ≤ k) := by
  induction ps generalizing x with
  | nil => cases mem
  | cons p t ih =>
    obtain ⟨below, risen⟩ := List.pairwise_cons.1 rising
    obtain ⟨i, o⟩ := p
    cases o with
    | none =>
      rcases List.mem_cons.1 mem with e | later
      · cases e
      · exact ih latest risen later
    | some y =>
      have here : (k, some r) = (i, some y) → k = i ∧ r = y := fun e => ⟨congrArg Prod.fst e, Option.some.inj (congrArg Prod.snd e)⟩
      rw [latestOf] at latest
      cases before : latestOf t with
      | none =>
        rw [before] at latest
        cases latest
        rcases List.mem_cons.1 mem with e | later
        · obtain ⟨rfl, rfl⟩ := here e
          exact ⟨Nat.le_refl _, fun _ => Nat.le_refl _⟩
        · cases latestOf_none before _ later
      | some best =>
        rw [before] at latest
        dsimp only at latest
        split at latest
        · cases latest
          rcases List.mem_cons.1 mem with e | later
          · obtain ⟨rfl, rfl⟩ := here e
            exact ⟨Nat.le_refl _, fun _ => Nat.le_refl _⟩
          · obtain ⟨gen, -⟩ := ih before risen later
            exact ⟨by dsimp only; omega, fun _ => Nat.le_of_lt (below _ later)⟩
        · cases latest
          rcases List.mem_cons.1 mem with e | later
          · obtain ⟨rfl, rfl⟩ := here e
            exact ⟨by omega, fun e => by omega⟩
          · exact ih before risen later

theorem ringSlots_rising (m : Memory) (l : Layout) : (ringSlots m l).Pairwise fun p q => p.1 < q.1 := by
  rw [ringSlots, List.pairwise_map]
  exact List.pairwise_lt_range

theorem mem_ringSlots {m : Memory} {l : Layout} {k : Nat} {o : Option CommitRecord} : (k, o) ∈ ringSlots m l ↔
    k < 128 ∧ ringRecord (Memory.read m (l.ring + 64 * k) 64) = o := by
  rw [ringSlots, List.mem_map]
  constructor
  · rintro ⟨i, inside, e⟩
    cases e
    exact ⟨List.mem_range.1 inside, rfl⟩
  · rintro ⟨inside, rfl⟩
    exact ⟨k, List.mem_range.2 inside, rfl⟩

/-! ## The key table (R155) -/

/-- The entry a key slot's first block gives at the load. -/
def State.loadedEntry (s : State) (k : Nat) (b : List Byte) : KeyEntry :=
  if decodeEmbedded b = .blank then KeyEntry.empty
  else match keyHeader k (decodeEmbedded b) (embeddedData b) with
    | none => { KeyEntry.empty with state := .damaged }
    | some e => if s.classTaken k e.cls then { e with state := .damaged } else e

/-- Loading a key slot sets its entry, and reports it where it is DAMAGED. -/
theorem State.loadKey_spec (s : State) (k : Nat) (b : List Byte) : s.loadKey k b =
    (s.setKey k (s.loadedEntry k b)).raiseAll (if (s.loadedEntry k b).state = .damaged then [{ cls := .keyDamage, slot := some k }]
      else []) := by
  unfold State.loadKey State.loadedEntry
  by_cases blank : decodeEmbedded b = .blank
  · simp only [blank, if_true]
    rfl
  · simp only [blank, if_false]
    cases header : keyHeader k (decodeEmbedded b) (embeddedData b) with
    | none => rfl
    | some e =>
      by_cases taken : s.classTaken k e.cls = true
      · simp only [taken, if_true]
        rfl
      · simp only [taken, Bool.false_eq_true, if_false, keyHeader_present header, reduceCtorEq]
        rfl

theorem State.loadKeys_append (s : State) (l : Layout) (m : Memory) (xs ys : List Nat) :
    s.loadKeys l m (xs ++ ys) = (s.loadKeys l m xs).loadKeys l m ys := by
  induction xs generalizing s with
  | nil => rfl
  | cons x t ih => exact ih _

/-- The entry of slot `k` is the one its block gives, beside the slots before it. -/
def State.KeyLoaded (u : State) (l : Layout) (m : Memory) (k : Nat) : Prop :=
  let b := Memory.read m (l.keys + 512 * k) 64
  let h := keyHeader k (decodeEmbedded b) (embeddedData b)
  (decodeEmbedded b = .blank → u.keyEntry k = KeyEntry.empty) ∧
  (decodeEmbedded b ≠ .blank → h = none → u.keyEntry k = { KeyEntry.empty with state := .damaged }) ∧
  ∀ e, decodeEmbedded b ≠ .blank → h = some e → u.keyEntry k =
    if ∃ j < k, (u.keyEntry j).state = .present ∧ (u.keyEntry j).cls = e.cls then { e with state := .damaged } else e

theorem State.KeyLoaded.notPending {u : State} {l : Layout} {m : Memory} {k : Nat} (loaded : u.KeyLoaded l m k) :
    (u.keyEntry k).state ≠ .pending := by
  obtain ⟨blank, none, some⟩ := loaded
  by_cases isBlank : decodeEmbedded (Memory.read m (l.keys + 512 * k) 64) = .blank
  · rw [blank isBlank]
    nofun
  · cases header : keyHeader k (decodeEmbedded (Memory.read m (l.keys + 512 * k) 64))
        (embeddedData (Memory.read m (l.keys + 512 * k) 64)) with
    | none => rw [none isBlank header]; nofun
    | some e =>
      rw [some e isBlank header]
      split
      · nofun
      · rw [keyHeader_present header]; nofun

theorem KeyEntry.holds_present {e : KeyEntry} {c : Nat} (notPending : e.state ≠ .pending) :
    e.holds c = true ↔ e.state = .present ∧ e.cls = c :=
  (e.holds_iff c).trans (and_congr_left fun _ => or_iff_left notPending)

theorem State.KeyLoaded.congr {u v : State} {l : Layout} {m : Memory} {k : Nat} (loaded : u.KeyLoaded l m k)
    (same : ∀ j, j ≤ k → v.keyEntry j = u.keyEntry j) : v.KeyLoaded l m k := by
  obtain ⟨blank, none, some⟩ := loaded
  refine ⟨fun b => (same k (Nat.le_refl _)).trans (blank b), fun b n => (same k (Nat.le_refl _)).trans (none b n), fun e b h => ?_⟩
  rw [same k (Nat.le_refl _), some e b h]
  refine if_congr (exists_congr fun j => and_congr_right fun hj => ?_) rfl rfl
  rw [same j (Nat.le_of_lt hj)]

/-- The reports of the DAMAGED entries among the first slots. -/
def State.damageReports (u : State) (n : Nat) : List Report :=
  ((List.range n).filter fun k => decide ((u.keyEntry k).state = .damaged)).map fun k => { cls := .keyDamage, slot := some k }

theorem State.damageReports_congr {u v : State} {n : Nat} (same : ∀ k, k < n → v.keyEntry k = u.keyEntry k) :
    v.damageReports n = u.damageReports n :=
  congrArg (List.map _) (List.filter_congr fun k hk => by rw [same k (List.mem_range.1 hk)])

theorem State.damageReports_succ (u : State) (n : Nat) : u.damageReports (n + 1) = u.damageReports n ++
    if (u.keyEntry n).state = .damaged then [{ cls := .keyDamage, slot := some n }] else [] := by
  unfold State.damageReports
  rw [List.range_succ, List.filter_append, List.map_append, List.filter_singleton]
  by_cases damaged : (u.keyEntry n).state = .damaged
  · rw [decide_eq_true damaged, if_pos damaged]
    rfl
  · rw [decide_eq_false damaged, if_neg damaged]
    rfl

/-- After the first `n` slots are loaded: their entries and reports stand, and the slots behind them are EMPTY. -/
structure State.KeysLoaded (u : State) (l : Layout) (m : Memory) (mode : Mode) (rs : List Report) (n : Nat) : Prop where
  length : u.keys.length = 16
  rest : ∀ k, n ≤ k → u.keyEntry k = KeyEntry.empty
  loaded : ∀ k, k < n → u.KeyLoaded l m k
  reported : u.Reported mode (rs ++ u.damageReports n)

theorem State.KeysLoaded.next {u : State} {l : Layout} {m : Memory} {mode : Mode} {rs : List Report} {n : Nat} (inside : n < 16)
    (h : u.KeysLoaded l m mode rs n) :
    (u.loadKey n (Memory.read m (keySlotAddr l n) 64)).KeysLoaded l m mode rs (n + 1) := by
  obtain ⟨length, rest, loaded, reported⟩ := h
  obtain ⟨b, hb⟩ : ∃ b, b = Memory.read m (keySlotAddr l n) 64 := ⟨_, rfl⟩
  obtain ⟨e, he⟩ : ∃ e, e = u.loadedEntry n b := ⟨_, rfl⟩
  have result := u.loadKey_spec n b
  rw [← he] at result
  have keys : (u.loadKey n b).keys = u.keys.set n e := by
    rw [result, State.raiseAll_eq]
    rfl
  have there : (u.loadKey n b).keyEntry n = e := by
    rw [State.keyEntry, keys, List.getD_eq_getElem?_getD, List.getElem?_set_self (by omega)]
    rfl
  have other : ∀ k, k ≠ n → (u.loadKey n b).keyEntry k = u.keyEntry k := fun k ne => by
    rw [State.keyEntry, keys, List.getD_eq_getElem?_getD, List.getElem?_set_ne (Ne.symm ne), ← List.getD_eq_getElem?_getD]
    rfl
  rw [← hb]
  refine ⟨by rw [keys, List.length_set, length], fun k hk => (other k (by omega)).trans (rest k (by omega)), fun k hk => ?_, ?_⟩
  · by_cases here : k = n
    · subst here
      have taken : ∀ c, u.classTaken k c = true ↔ ∃ j < k, ((u.loadKey k b).keyEntry j).state = .present ∧
          ((u.loadKey k b).keyEntry j).cls = c := fun c => by
        rw [State.classTaken_iff]
        constructor
        · rintro ⟨j, -, ne, holds⟩
          have before : j < k := by
            by_contra behind
            rw [rest j (by omega)] at holds
            cases holds
          rw [KeyEntry.holds_present (loaded j before).notPending] at holds
          exact ⟨j, before, by rw [other j ne]; exact holds⟩
        · rintro ⟨j, before, holds⟩
          rw [other j (by omega)] at holds
          exact ⟨j, by omega, by omega, (KeyEntry.holds_present (loaded j before).notPending).2 holds⟩
      unfold State.KeyLoaded
      rw [there, he, ← show b = Memory.read m (l.keys + 512 * k) 64 from hb]
      refine ⟨fun blank => if_pos blank, fun written none => ?_, fun e written header => ?_⟩
      · rw [State.loadedEntry, if_neg written, none]
      · rw [State.loadedEntry, if_neg written, header]
        exact if_congr (taken e.cls) rfl rfl
    · exact (loaded k (by omega)).congr fun j hj => other j (by omega)
  · rw [State.damageReports_succ, there, State.damageReports_congr fun k hk => other k (by omega), ← List.append_assoc, result]
    exact State.Reported.raiseAll (u := u.setKey n e) (reported.congr rfl rfl rfl) _

theorem State.keysLoaded_sixteen {u : State} {mode : Mode} {rs : List Report} (l : Layout) (m : Memory)
    (empty : u.keys = List.replicate 16 KeyEntry.empty) (reported : u.Reported mode rs) :
    (u.loadKeys l m (List.range 16)).KeysLoaded l m mode rs 16 := by
  have first : ∀ n, n ≤ 16 → (u.loadKeys l m (List.range n)).KeysLoaded l m mode rs n := fun n => by
    induction n with
    | zero =>
      refine fun _ => ⟨by rw [List.range_zero, State.loadKeys, empty, List.length_replicate], fun k _ => ?_, nofun, ?_⟩
      · show u.keys.getD k KeyEntry.empty = _
        rw [empty, List.getD_eq_getElem?_getD, List.getElem?_replicate]
        split <;> rfl
      · rw [show State.damageReports _ 0 = [] from rfl, List.append_nil]
        exact reported
    | succ n ih =>
      intro inside
      rw [List.range_succ, State.loadKeys_append]
      exact (ih (by omega)).next (by omega)
  exact first 16 (Nat.le_refl _)

/-! ## The region (R169) -/

theorem profileHeader_trusted {b : List Byte} {h : ProfileHeader} (header : profileHeader b = some h) :
    (decodeEmbedded b).trusted = true := by
  unfold profileHeader at header
  simp only [Option.ite_none_right_eq_some, Bool.and_eq_true] at header
  obtain ⟨⟨⟨⟨⟨⟨⟨trusted, -⟩, -⟩, -⟩, -⟩, -⟩, -⟩, -⟩ := header
  exact trusted

/-- The report of a selected slot whose header cannot be trusted. -/
def regionReport (l : Layout) (m : Memory) (slot : Nat) : List Report :=
  if (decodeEmbedded (Memory.read m (l.profiles + 65536 * slot) 64)).trusted = true then []
  else [{ cls := .storeUncorrected, address := some (l.profiles + 65536 * slot) }]

/-- The region a selection gives: its header's classes where id and scale agree, and nothing known else. -/
def selectedRegion (l : Layout) (m : Memory) (sel : Selection) : Region :=
  let known := (profileHeader (Memory.read m (l.profiles + 65536 * sel.slot) 64)).filter
    fun h => decide (h.id = sel.id ∧ h.scale = sel.scale)
  { selected := some sel, classes := known.map fun h => h.classes, directory := (List.replicate 8 none).set sel.slot known, reason := 0 }

theorem replicate_set_self {α : Type} (n i : Nat) (a : α) : (List.replicate n a).set i a = List.replicate n a := by
  refine List.ext_getElem? fun k => ?_
  rw [List.getElem?_set, List.getElem?_replicate, List.length_replicate]
  split_ifs <;> simp_all

theorem State.loadClasses_eq {s : State} (l : Layout) (m : Memory) (sel : Selection) (region : s.region = State.reset.region) :
    s.loadClasses l m sel = State.raiseAll { s with region := selectedRegion l m sel } (regionReport l m sel.slot) := by
  have unknown : ∀ {known : Option ProfileHeader}, known = none →
      ({ s.region with selected := some sel, classes := none } : Region) =
        { selected := some sel, classes := known.map fun h => h.classes, directory := (List.replicate 8 none).set sel.slot known
          reason := 0 } := fun e => by
    rw [e, region, replicate_set_self]
    rfl
  have address : profileAddr l sel.slot = l.profiles + 65536 * sel.slot := rfl
  unfold State.loadClasses selectedRegion
  rw [address]
  dsimp only
  cases header : profileHeader (Memory.read m (l.profiles + 65536 * sel.slot) 64) with
  | none =>
    dsimp only
    rw [unknown rfl, regionReport]
    split <;> rfl
  | some h =>
    have quiet : regionReport l m sel.slot = [] := if_pos (profileHeader_trusted header)
    rw [quiet]
    dsimp only
    by_cases agrees : h.id = sel.id ∧ h.scale = sel.scale
    · have known : (some h).filter (fun h => decide (h.id = sel.id ∧ h.scale = sel.scale)) = some h := if_pos (decide_eq_true agrees)
      rw [if_pos agrees, known, State.setDirectory, region]
      rfl
    · have known : (some h).filter (fun h => decide (h.id = sel.id ∧ h.scale = sel.scale)) = none :=
        if_neg fun e => agrees (of_decide_eq_true e)
      rw [if_neg agrees, known, unknown rfl]
      rfl

end Sys2Proof.Machine
end

section
/-! The load with a valid descriptor (R17); the statement O22. -/

namespace Sys2Proof.Machine

/-! ## What the load sets, step by step -/

/-- What the load has set beyond the layout, the latest record and the mode. -/
structure LoadResult where
  pfw : Bool
  reports : List Report
  grid : Grid
  classMap : List (Option ZoneClass)
  keys : List KeyEntry
  region : Region

/-- The result before the load's first step. -/
def LoadResult.start : LoadResult :=
  { pfw := false, reports := [], grid := Grid.empty, classMap := [], keys := List.replicate 16 KeyEntry.empty
    region := State.reset.region }

/-- The state during the load. -/
def State.loaded (s : State) (x : LoadResult) : State :=
  { s with
    pfw := x.pfw, conds := (State.raiseAll { State.reset with mode := s.mode } x.reports).conds, grid := x.grid
    classMap := x.classMap, keys := x.keys, region := x.region }

/-- The result with more reports. -/
def LoadResult.report (x : LoadResult) (rs : List Report) : LoadResult := { x with reports := x.reports ++ rs }

/-- The result after a step in which PFW may assert. -/
def LoadResult.pfwAt (x : LoadResult) (i : PowerOnInput) (n : Nat) : LoadResult :=
  { x.report (pfwReport i n) with pfw := x.pfw || decide (i.pfwStep = some n) }

section
variable {s : State} (session : s.session = State.reset.session) (x : LoadResult)
include session

theorem State.loaded_reported : (s.loaded x).Reported s.mode x.reports := ⟨rfl, session, rfl⟩

theorem State.loaded_raiseAll (rs : List Report) : (s.loaded x).raiseAll rs = s.loaded (x.report rs) := by
  rw [State.raiseAll_eq, ((State.loaded_reported session x).raiseAll rs).conds]
  rfl

theorem State.loaded_pfwAt (i : PowerOnInput) (n : Nat) : (s.loaded x).pfwAt i n = s.loaded (x.pfwAt i n) := by
  rw [State.pfwAt_eq, ((State.loaded_reported session x).pfwAt i n).conds, State.pfwAt_pfw]
  rfl

theorem State.loaded_noteDescriptor (b : List Byte) : (s.loaded x).noteDescriptor b = s.loaded (x.report
    (if (decodeEmbedded b).corrected = true then [{ cls := .descriptor, address := some descriptorBase }] else [])) := by
  rw [← State.loaded_raiseAll session, State.noteDescriptor]
  split <;> rfl

end

/-! ## Resume (R17 step 5) -/

/-- What resume makes of a record: the grid with its generation mark. -/
def resumedGrid (r : CommitRecord) (m : Memory) (l : Layout) : Grid :=
  { (resumeFrom r m l).grid with genMark := max (resumeFrom r m l).grid.generation (max
      (if r.uniformityValid = true then r.uniGen else 0) (if r.parkValid = true then r.parkGen else 0)) }

/-- The result after step 5. -/
def LoadResult.resume (x : LoadResult) (mode : Mode) (latest : Option Latest) (l : Layout) (m : Memory) : LoadResult :=
  match latest with
  | some y =>
    if mode = .commissioning then
      { x.report (resumeFrom y.record m l).reports with
        grid := resumedGrid y.record m l, classMap := List.replicate (resumedGrid y.record m l).zones none }
    else x
  | none => x

theorem State.resumeMark_found {s : State} {y : Latest} (found : s.latest = some y) : s.resumeMark = max s.grid.generation
    (max (if y.record.uniformityValid = true then y.record.uniGen else 0) (if y.record.parkValid = true then y.record.parkGen else 0)) := by
  rw [State.resumeMark, State.uniGen?, State.parkGen?, found]
  dsimp only
  congr 2
  · split <;> rfl
  · split <;> rfl

theorem State.loaded_loadGrid {s : State} (session : s.session = State.reset.session) (x : LoadResult) (l : Layout) (m : Memory) :
    (s.loaded x).loadGrid l m = s.loaded (x.resume s.mode s.latest l m) := by
  unfold State.loadGrid LoadResult.resume
  have mode : (s.loaded x).mode = s.mode := rfl
  have latest : (s.loaded x).latest = s.latest := rfl
  rw [mode]
  by_cases commissioning : s.mode = .commissioning
  · simp only [commissioning, if_true]
    rw [State.resume, latest]
    cases found : s.latest with
    | none => rfl
    | some y =>
      dsimp only
      rw [State.loaded_raiseAll session, State.resumeMark_found (s := { s.loaded (x.report (resumeFrom y.record m l).reports) with
        grid := (resumeFrom y.record m l).grid }) found]
      rfl
  · rw [if_neg commissioning]
    cases s.latest with
    | none => rfl
    | some y => exact congrArg s.loaded (if_neg commissioning).symm

/-! ## Keys, region and the release (R17 steps 6 to 9) -/

/-- The reports of a table's DAMAGED entries. -/
def keyReports (keys : List KeyEntry) : List Report :=
  ((List.range 16).filter fun k => decide ((keys.getD k KeyEntry.empty).state = .damaged)).map fun k =>
    { cls := .keyDamage, slot := some k }

theorem State.loaded_loadKeys {s : State} (session : s.session = State.reset.session) (x : LoadResult) (l : Layout) (m : Memory)
    (empty : x.keys = List.replicate 16 KeyEntry.empty) :
    ∃ ks, (s.loaded x).loadKeys l m (List.range 16) = s.loaded { x.report (keyReports ks) with keys := ks } ∧
      ks.length = 16 ∧ ∀ u : State, u.keys = ks → ∀ k, k < 16 → u.KeyLoaded l m k := by
  obtain ⟨length, -, loaded, reported⟩ := State.keysLoaded_sixteen l m (u := s.loaded x) empty (State.loaded_reported session x)
  refine ⟨((s.loaded x).loadKeys l m (List.range 16)).keys, ?_, length, fun u same k hk => (loaded k hk).congr fun j _ => ?_⟩
  · rw [State.loadKeys_eq, reported.conds]
    rfl
  · rw [State.keyEntry, same]
    rfl

/-- The region and its report, of a record's selection. -/
def LoadResult.select (x : LoadResult) (sel : Option Selection) (l : Layout) (m : Memory) : LoadResult :=
  match sel with
  | some y => { x.report (regionReport l m y.slot) with region := selectedRegion l m y }
  | none => x

theorem State.loaded_loadRegion {s : State} (session : s.session = State.reset.session) (x : LoadResult) (l : Layout) (m : Memory)
    (region : x.region = State.reset.region) :
    (s.loaded x).loadRegion l m = s.loaded (x.select (s.latest.bind fun y => y.record.selection) l m) := by
  unfold State.loadRegion LoadResult.select
  have latest : (s.loaded x).latest = s.latest := rfl
  rw [latest]
  cases s.latest.bind fun y => y.record.selection with
  | none => rfl
  | some sel =>
    dsimp only
    rw [State.loadClasses_eq l m sel (s := s.loaded x) region]
    exact State.loaded_raiseAll session { x with region := selectedRegion l m sel } _

/-- PFW does not look at the hold's release. -/
theorem State.pfwAt_releaseHold (s : State) (b : Bool) (i : PowerOnInput) (n : Nat) :
    (s.releaseHold b).pfwAt i n = (s.pfwAt i n).releaseHold b := by
  unfold State.pfwAt
  split
  · rw [State.pfwRise, State.pfwRise, State.raise_as (s := { s with pfw := true }) (u := { s.releaseHold b with pfw := true }) rfl rfl rfl,
      State.raise_eq { s with pfw := true }]
    rfl
  · rfl

/-- The whole load's result, with the keys it found. -/
def LoadResult.whole (i : PowerOnInput) (mode : Mode) (latest : Option Latest) (l : Layout) (m : Memory) (b : List Byte)
    (ks : List KeyEntry) : LoadResult :=
  let x2 := ((LoadResult.start.pfwAt i 1).pfwAt i 2).report
    (if (decodeEmbedded b).corrected = true then [{ cls := .descriptor, address := some descriptorBase }] else [])
  let x5 := (((x2.pfwAt i 3).pfwAt i 4).pfwAt i 5).resume mode latest l m
  let x6 : LoadResult := { (x5.pfwAt i 6).report (keyReports ks) with keys := ks }
  let x7 := (x6.pfwAt i 7).select (latest.bind fun y => y.record.selection) l m
  (x7.pfwAt i 8).pfwAt i 9

/-- The state of the load with its layout, latest record and mode, before its first step. -/
def State.described (s : State) (i : PowerOnInput) (l : Layout) : State :=
  let latest := latestOf (ringSlots (Memory.setAll s.flash.cells i.misread) l)
  { s.powerUp i.lineMode with layout := some l, latest := latest, mode := decideMode i.lineMode latest }

theorem LoadResult.resume_keys (x : LoadResult) (mode : Mode) (latest : Option Latest) (l : Layout) (m : Memory) :
    (x.resume mode latest l m).keys = x.keys ∧ (x.resume mode latest l m).region = x.region ∧ (x.resume mode latest l m).pfw = x.pfw := by
  unfold LoadResult.resume
  cases latest with
  | none => exact ⟨rfl, rfl, rfl⟩
  | some y =>
    dsimp only
    split <;> exact ⟨rfl, rfl, rfl⟩

theorem State.powerOn_valid {s : State} {i : PowerOnInput} {l : Layout}
    (valid : descriptorLayout (Memory.read (Memory.setAll s.flash.cells i.misread) descriptorBase 64) = some l) :
    let m := Memory.setAll s.flash.cells i.misread
    let u := s.described i l
    ∃ ks, s.powerOn i = (((u.loaded (LoadResult.whole i u.mode u.latest l m (Memory.read m descriptorBase 64) ks)).releaseHold
        i.selectHeld).queueJob (plainJob .scan 0)).startDue ∧
      ks.length = 16 ∧ ∀ v : State, v.keys = ks → ∀ k, k < 16 → v.KeyLoaded l m k := by
  intro m u
  have session : u.session = State.reset.session := rfl
  obtain ⟨x5, hx5⟩ : ∃ x, x = ((((((LoadResult.start.pfwAt i 1).pfwAt i 2).report
      (if (decodeEmbedded (Memory.read m descriptorBase 64)).corrected = true then
        [{ cls := .descriptor, address := some descriptorBase }] else [])).pfwAt i 3).pfwAt i 4).pfwAt i 5).resume u.mode u.latest l m :=
    ⟨_, rfl⟩
  obtain ⟨sameKeys, sameRegion, -⟩ := LoadResult.resume_keys ((((((LoadResult.start.pfwAt i 1).pfwAt i 2).report
      (if (decodeEmbedded (Memory.read m descriptorBase 64)).corrected = true then
        [{ cls := .descriptor, address := some descriptorBase }] else [])).pfwAt i 3).pfwAt i 4).pfwAt i 5) u.mode u.latest l m
  rw [← hx5] at sameKeys sameRegion
  obtain ⟨ks, keys, length, loaded⟩ := State.loaded_loadKeys session (x5.pfwAt i 6) l m sameKeys
  refine ⟨ks, ?_, length, loaded⟩
  have rest : (((u.pfwAt i 1).pfwAt i 2).noteDescriptor (Memory.read m descriptorBase 64)).loadRest i l m =
      (((u.loaded (LoadResult.whole i u.mode u.latest l m (Memory.read m descriptorBase 64) ks)).releaseHold
        i.selectHeld).queueJob (plainJob .scan 0)).startDue := by
    show ((((u.loaded LoadResult.start).pfwAt i 1).pfwAt i 2).noteDescriptor _).loadRest i l m = _
    unfold State.loadRest
    dsimp only
    rw [State.loaded_pfwAt session, State.loaded_pfwAt session, State.loaded_noteDescriptor session, State.loaded_pfwAt session,
      State.loaded_pfwAt session, State.loaded_pfwAt session, State.loaded_loadGrid session, ← hx5, State.loaded_pfwAt session, keys,
      State.loaded_pfwAt session, State.loaded_loadRegion session _ l m (by exact sameRegion), State.loaded_pfwAt session,
      State.pfwAt_releaseHold, State.loaded_pfwAt session, hx5]
    rfl
  rw [← rest]
  simp only [State.powerOn, valid]
  rfl

/-! ## The fields of the whole result -/

theorem LoadResult.resume_eq {x : LoadResult} (grid : x.grid = Grid.empty) (classMap : x.classMap = []) (mode : Mode)
    (latest : Option Latest) (l : Layout) (m : Memory) : x.resume mode latest l m =
      let y := LoadResult.start.resume mode latest l m
      { x with reports := x.reports ++ y.reports, grid := y.grid, classMap := y.classMap } := by
  have same : x = { x with reports := x.reports ++ [], grid := Grid.empty, classMap := [] } := by
    rw [List.append_nil, ← grid, ← classMap]
  unfold LoadResult.resume
  cases latest with
  | none => exact same
  | some y =>
    by_cases commissioning : mode = .commissioning
    · simp only [commissioning, if_true]
      rfl
    · simp only [commissioning, if_false]
      exact same

theorem LoadResult.select_eq {x : LoadResult} (region : x.region = State.reset.region) (sel : Option Selection) (l : Layout)
    (m : Memory) : x.select sel l m =
      let y := LoadResult.start.select sel l m
      { x with reports := x.reports ++ y.reports, region := y.region } := by
  cases sel with
  | none =>
    show x = { x with reports := x.reports ++ [], region := State.reset.region }
    rw [List.append_nil, ← region]
  | some y => rfl

/-- The whole result, with what resume and the region's load come to. -/
theorem LoadResult.whole_eq (i : PowerOnInput) (mode : Mode) (latest : Option Latest) (l : Layout) (m : Memory) (b : List Byte)
    (ks : List KeyEntry) :
    let y := LoadResult.start.resume mode latest l m
    let z := LoadResult.start.select (latest.bind fun y => y.record.selection) l m
    LoadResult.whole i mode latest l m b ks =
      { pfw := (LoadResult.whole i mode latest l m b ks).pfw
        reports := pfwReport i 1 ++ pfwReport i 2 ++
          (if (decodeEmbedded b).corrected = true then [{ cls := .descriptor, address := some descriptorBase }] else []) ++
          pfwReport i 3 ++ pfwReport i 4 ++ pfwReport i 5 ++ y.reports ++ pfwReport i 6 ++ keyReports ks ++ pfwReport i 7 ++ z.reports ++
          pfwReport i 8 ++ pfwReport i 9
        grid := y.grid, classMap := y.classMap, keys := ks, region := z.region } := by
  intro y z
  unfold LoadResult.whole
  dsimp only
  rw [LoadResult.resume_eq (by rfl) (by rfl), LoadResult.select_eq (by rfl)]
  rfl

theorem LoadResult.whole_pfw (i : PowerOnInput) (mode : Mode) (latest : Option Latest) (l : Layout) (m : Memory) (b : List Byte)
    (ks : List KeyEntry) : (LoadResult.whole i mode latest l m b ks).pfw = true ↔ ∃ n, 1 ≤ n ∧ n ≤ 9 ∧ i.pfwStep = some n := by
  unfold LoadResult.whole
  dsimp only
  rw [LoadResult.resume_eq (by rfl) (by rfl), LoadResult.select_eq (by rfl)]
  simp only [LoadResult.pfwAt, LoadResult.report, LoadResult.start, Bool.or_eq_true, decide_eq_true_eq, Bool.false_eq_true, false_or]
  constructor
  · rintro ((((((((h | h) | h) | h) | h) | h) | h) | h) | h) <;> exact ⟨_, by decide, by decide, h⟩
  · rintro ⟨n, low, high, step⟩
    rw [step]
    simp only [Option.some.injEq]
    omega

theorem CommitRecord.selection_legal {r : CommitRecord} (legal : r.regionValid = true ∧ r.regionSlot ≤ 7 ∧ 128 ≤ r.regionScale ∧
    r.regionScale ≤ 256) : r.selection = some { slot := r.regionSlot, id := r.profileId, scale := r.regionScale } := if_pos legal

theorem CommitRecord.selection_illegal {r : CommitRecord} (illegal : ¬(r.regionValid = true ∧ r.regionSlot ≤ 7 ∧ 128 ≤ r.regionScale ∧
    r.regionScale ≤ 256)) : r.selection = none := if_neg illegal

theorem LoadResult.resume_classMap (mode : Mode) (latest : Option Latest) (l : Layout) (m : Memory) :
    (LoadResult.start.resume mode latest l m).classMap =
      List.replicate (LoadResult.start.resume mode latest l m).grid.zones none := by
  unfold LoadResult.resume
  cases latest with
  | none => rfl
  | some y =>
    dsimp only
    split <;> rfl

theorem LoadResult.resume_empty {mode : Mode} {latest : Option Latest} (l : Layout) (m : Memory) (none : mode = .normal ∨ latest = none) :
    LoadResult.start.resume mode latest l m = LoadResult.start := by
  unfold LoadResult.resume
  rcases none with normal | none
  · subst normal
    cases latest <;> rfl
  · rw [none]

theorem decideMode_commissioning (lineMode : Bool) (s : State) : decideMode lineMode s.latest = .commissioning ↔
    lineMode = true ∨ s.latest = none ∨ s.closedFlag = false := by
  unfold decideMode State.closedFlag
  cases s.latest with
  | none => simp
  | some x => cases lineMode <;> cases x.record.closed <;> simp

theorem decideMode_normal (lineMode : Bool) (latest : Option Latest) (other : decideMode lineMode latest ≠ .commissioning) :
    decideMode lineMode latest = .normal := by
  unfold decideMode at *
  cases latest with
  | none => exact absurd rfl other
  | some x =>
    dsimp only at *
    split
    · rename_i commissioning
      exact absurd (if_pos commissioning) other
    · rfl

/-! ## The statement O22 -/

/-- The state in which the load ends, its first SCAN in progress. -/
def State.scanning (s : State) (l : Layout) (x : LoadResult) (selectHeld : Bool) : State :=
  let v := (s.loaded x).releaseHold selectHeld
  { v with seq := { v.seq with active := some (freshJob (plainJob .scan 0) JobData.empty (v.scanSteps l)), waiting := [] } }

theorem State.scan_starts {s : State} {l : Layout} {x : LoadResult} (held : Bool) (layout : s.layout = some l)
    (idle : s.seq.active = none) (empty : s.seq.waiting = []) :
    (((s.loaded x).releaseHold held).queueJob (plainJob .scan 0)).startDue = s.scanning l x held := by
  have waiting : (((s.loaded x).releaseHold held).queueJob (plainJob .scan 0)).seq.waiting = plainJob .scan 0 :: [] := by
    show s.seq.waiting ++ _ = _
    rw [empty]
    rfl
  rw [State.startDue_starts (s := ((s.loaded x).releaseHold held).queueJob (plainJob .scan 0)) layout idle waiting (by nofun),
    State.startJob_scan _ l rfl]
  rfl

/-- Settles O22: the state is the one of the load's result, and each field is read from it. -/
theorem powerOnWithAValidDescriptor : Obligations.PowerOnWithAValidDescriptor := by
  refine ⟨descriptorLayout_spec, fun i s l => ?_⟩
  intro m descriptor ring profile warning legal sound areas panel valid
  obtain ⟨ks, power, length, loaded⟩ := State.powerOn_valid valid
  obtain ⟨u, hu⟩ : ∃ u, u = s.described i l := ⟨_, rfl⟩
  obtain ⟨x, hx⟩ : ∃ x, x = LoadResult.whole i u.mode u.latest l m (Memory.read m descriptorBase 64) ks := ⟨_, rfl⟩
  have whole := LoadResult.whole_eq i u.mode u.latest l m (Memory.read m descriptorBase 64) ks
  rw [← hu, State.scan_starts i.selectHeld (by rw [hu]; rfl) (by rw [hu]; rfl) (by rw [hu]; rfl), ← hx] at power
  obtain ⟨t, ht⟩ : ∃ t, t = (u.scanning l x i.selectHeld).settle := ⟨_, rfl⟩
  have latest : t.latest = latestOf (ringSlots m l) := by rw [ht, hu]; rfl
  have mode : t.mode = decideMode i.lineMode t.latest := by rw [latest, ht, hu]; rfl
  have uMode : u.mode = t.mode := by rw [ht]; rfl
  have uLatest : u.latest = t.latest := by rw [ht]; rfl
  rw [← hx, uMode, uLatest] at whole
  have keys : t.keys = ks := by rw [ht]; exact congrArg LoadResult.keys whole
  have grid : t.grid = (LoadResult.start.resume t.mode t.latest l m).grid := by
    rw [← congrArg LoadResult.grid whole, ht]
    rfl
  have classMap : t.classMap = (LoadResult.start.resume t.mode t.latest l m).classMap := by
    rw [← congrArg LoadResult.classMap whole, ht]
    rfl
  have region : t.region = (LoadResult.start.select (t.latest.bind fun y => y.record.selection) l m).region := by
    rw [← congrArg LoadResult.region whole, ht]
    rfl
  obtain ⟨-, -, -, plans, -⟩ := jobsStartOneAtATime
  obtain ⟨-, -, unsound, uniform⟩ := plans t l
  refine ⟨t, freshJob (plainJob .scan 0) JobData.empty (t.scanSteps l), (LoadResult.start.resume t.mode t.latest l m).reports,
    ?exec, ?state, ?pfw, ?select, ?ignored, rfl, unsound, uniform, ?noLatest, ?latest, ?mode, ?normal, ?noGrid, ?grid, ?sixteen, ?keys,
    ?noRegion, ?region, ?conds⟩
  case exec =>
    rw [ht, ← power]
    rfl
  case state =>
    have classes : List.replicate t.grid.zones none = t.classMap := by rw [classMap, grid, LoadResult.resume_classMap]
    rw [classes, ht, hu]
    rfl
  case pfw =>
    rw [← LoadResult.whole_pfw i u.mode u.latest l m (Memory.read m descriptorBase 64) ks, ← hx, ht]
    rfl
  case select =>
    rw [ht]
    show (if i.selectHeld = true then some _ else none) = none ↔ _
    cases i.selectHeld <;> simp
  case ignored =>
    rw [ht]
    show ∀ x, (if i.selectHeld = true then some _ else none) = some x → _
    cases i.selectHeld <;> simp
  case noLatest =>
    intro none k hk
    rw [latest] at none
    exact latestOf_none none (k, ring k) (mem_ringSlots.2 ⟨hk, rfl⟩)
  case latest =>
    intro y found
    rw [latest] at found
    obtain ⟨inside, record⟩ := mem_ringSlots.1 (latestOf_mem found)
    exact ⟨inside, record, fun k r hk valid => latestOf_best found (ringSlots_rising m l) (mem_ringSlots.2 ⟨hk, valid⟩)⟩
  case mode =>
    rw [mode]
    exact decideMode_commissioning i.lineMode t
  case normal =>
    rw [mode]
    exact decideMode_normal _ _
  case noGrid =>
    intro none
    rw [grid, LoadResult.resume_empty l m none]
    exact ⟨rfl, rfl⟩
  case grid =>
    intro y commissioning found
    rw [grid, commissioning, found]
    exact ⟨rfl, rfl⟩
  case sixteen => rw [keys, length]
  case keys => exact fun k hk => loaded t keys k hk
  case noRegion =>
    intro illegal
    rw [region]
    cases found : t.latest with
    | none => rfl
    | some y =>
      rw [Option.bind_some, CommitRecord.selection_illegal (illegal y found)]
      rfl
  case region =>
    intro y found permitted
    rw [region, found, Option.bind_some, CommitRecord.selection_legal permitted]
    rfl
  case conds =>
    intro corrected keyed regional
    have reports : regional = (LoadResult.start.select (t.latest.bind fun y => y.record.selection) l m).reports := by
      show (match t.region.selected with | some y => regionReport l m y.slot | none => []) = _
      rw [region]
      cases t.latest.bind fun y => y.record.selection <;> rfl
    have keyReported : keyed = keyReports ks := by
      rw [← keys]
      rfl
    rw [reports, keyReported]
    have conds : t.conds = (State.raiseAll { State.reset with mode := t.mode } x.reports).conds := by
      rw [ht]
      rfl
    rw [conds, congrArg LoadResult.reports whole]
    rfl

end Sys2Proof.Machine
end
